-- ==== Sys2Proof/Word.lean ====
section
/-! DEFINITION. The widths of the fields that the link carries (spec/11 R175) and of the secret items (spec/00 4.4). -/

namespace Sys2Proof

/-- One byte of a frame. -/
abbrev Byte := BitVec 8

/-- A 2-byte field: a pull number, a sector count, a unit size (R175). -/
abbrev Half := BitVec 16

/-- A 16-byte block of the cipher, byte 0 in bits 0 to 7, as R115 reads it for doubling. -/
abbrev Block := BitVec 128

/-- The tick counter's width (R156). -/
abbrev Ticks := BitVec 32

/-- A 6-byte field: an LBA, a range base, a range length (R175). -/
abbrev Lba48 := BitVec 48

/-- An 8-byte field: a capacity or a cursor, which can equal 2^48 (R175). -/
abbrev Lba64 := BitVec 64

/-- A 32-byte credential (4.4). -/
abbrev Credential := BitVec 256

/-- A 32-byte authority key (R49). -/
abbrev AuthKey := BitVec 256

/-- A 48-byte verifier blob (4.4). -/
abbrev VerifierBlob := BitVec 384

/-- The 64 bytes of a slot's key: bytes 0 to 31 the data key K1, bytes 32 to 63 the tweak key K2 (R64, 7.3). -/
abbrev KeyMaterial := BitVec 512

/-- An 80-byte key blob (4.4). -/
abbrev KeyBlob := BitVec 640

/-- Numbers of the part's records (00_scope.md 4.3). -/
abbrev Tag := Fin 32
abbrev SlotNo := Fin 20
abbrev RangeNo := Fin 17
abbrev AuthNo := Fin 4
abbrev LaneNo := Fin 4
abbrev ProfileNo := Fin 8
abbrev StreamNo := Fin 8
abbrev ClassNo := Fin 4

/-- The number a one-byte field names, where it is below `n`. -/
def numberBelow (n : Nat) (b : Byte) : Option (Fin n) :=
  if h : b.toNat < n then some ⟨b.toNat, h⟩ else none

/-- The flag or select a one-byte field gives: 0 clear, 1 set, anything else no legal value (R175). -/
def flagOf (b : Byte) : Option Bool :=
  if b = 0 then some false else if b = 1 then some true else none

end Sys2Proof
end

