-- ==== Sys2Proof/Config.lean ====
section
/-! DEFINITION. The free values: what spec/ leaves open about a value while the part goes on. Each is an uninterpreted
constant, so that every statement holds whatever it is (log entries 2 and 3). -/

namespace Sys2Proof

/-- The device secret, fixed in each ME240 at manufacture; no request reads or changes it, and its form is not given
(R50). -/
opaque Config.deviceSecret : Nat

/-- The 64 bytes that the `n`-th draw from the noise source gives a generation (R72). -/
opaque Config.noiseKey : (n : Nat) → KeyMaterial

/-- The 32 bytes that the `n`-th draw from the noise source gives a creation (R55). -/
opaque Config.noiseAuthKey : (n : Nat) → AuthKey

/-- The verifier blob that the wrap makes of an authority key: device secret, authority, credential, authority key, and
how many blobs of its kind were made before (the internal construction of the wrap is not part of the manual, 4.2). -/
opaque Config.wrapVerifier : Nat → AuthNo → Credential → AuthKey → Nat → VerifierBlob

/-- The key blob that the wrap makes of key material, in the same way (4.2). -/
opaque Config.wrapKey : Nat → AuthNo → AuthKey → KeyMaterial → Nat → KeyBlob

/-- A verifier blob that was made, and what R50 binds it to besides the device secret: the authority, the credential, and the
authority key that it wraps (log entry 3). -/
structure MadeVerifier where
  auth : AuthNo
  cred : Credential
  blob : VerifierBlob
  key : AuthKey
deriving DecidableEq, Repr

/-- A key blob that was made, in the same way: under an authority and its key, wrapping key material (R50, log entry 3). -/
structure MadeKey where
  auth : AuthNo
  authKey : AuthKey
  blob : KeyBlob
  key : KeyMaterial
deriving DecidableEq, Repr

/-- The verifier blobs made under a device secret before the model's start; no other ME240 makes blobs under it (R50). -/
opaque Config.earlierVerifiers : (deviceSecret : Nat) → List MadeVerifier

/-- The key blobs made under a device secret before the model's start (R50). -/
opaque Config.earlierKeys : (deviceSecret : Nat) → List MadeKey

end Sys2Proof
end

