-- ==== Sys2Proof/Machine/Bytes.lean ====
section
/-! DEFINITION. Little-endian fields (spec/11 R175) and the check word of a frame (spec/01 R2). -/

namespace Sys2Proof.Machine

/-- The `n` bytes of a number, least significant first (R175). -/
def leBytes : Nat → Nat → List Byte
  | 0, _ => []
  | n + 1, v => BitVec.ofNat 8 v :: leBytes n (v / 256)

/-- The number that bytes spell, least significant first (R175). -/
def leNat : List Byte → Nat
  | [] => 0
  | b :: bs => b.toNat + 256 * leNat bs

/-- A bit vector's bytes, least significant first: `n` of them. -/
def leOf {w : Nat} (n : Nat) (v : BitVec w) : List Byte := leBytes n v.toNat

/-- The first `n` bytes as a bit vector of `w` bits. -/
def leTo (w : Nat) (bs : List Byte) : BitVec w := BitVec.ofNat w (leNat bs)

/-- The generator polynomial of the check word (R2). -/
def crcPolynomial : BitVec 32 := 0x1EDC6F41#32

/-- One bit of the check word's register, shifted towards the least significant end (R2: each byte is processed least
significant bit first, and the register is shifted to match, so the polynomial is used with its bits reversed). -/
def crcBit (r : BitVec 32) : BitVec 32 :=
  if r.getLsbD 0 then (r >>> 1) ^^^ crcPolynomial.reverse else r >>> 1

/-- `n` bits of the register. -/
def crcBits : Nat → BitVec 32 → BitVec 32
  | 0, r => r
  | n + 1, r => crcBits n (crcBit r)

/-- One byte of the frame taken into the register. -/
def crcByte (r : BitVec 32) (b : Byte) : BitVec 32 :=
  crcBits 8 (r ^^^ b.setWidth 32)

/-- The check word of a frame's header and body (R2): from 0xFFFFFFFF, complemented at the end. -/
def checkWord (bytes : List Byte) : BitVec 32 :=
  ~~~ (bytes.foldl crcByte 0xFFFFFFFF#32)

/-- The header, body and check word of a frame (R174). -/
def envelope (kind : Byte) (body : List Byte) : List Byte :=
  let front := kind :: (leBytes 2 body.length ++ body)
  front ++ leOf 4 (checkWord front)

end Sys2Proof.Machine
end

