-- ==== Sys2Proof/Syntax.lean ====
section
/-! DEFINITION. The commands: one constructor for each row of spec/opcode_table.json. -/

namespace Sys2Proof

/-- The request kinds that the part defines (R175, table of 11.3). -/
inductive Request where
  | provision | status | reset | setInterval | doze | deep | releaseHold
  | setProfile | setStream
  | defineRange | bindKey | lockRange | unlockRange | queryRange
  | enrol | createAuthority | unlockAuthority | sealAuthority | setCredential
  | loadKey | generateKey | purgeKey | querySlot
  | openJob | endJob | queryJob
  | startSweep | pauseSweep | cancelSweep | resumeSweep | abandonSweep | sweepCommit
deriving DecidableEq, Repr

/-- Why a frame was discarded (R3). -/
inductive LinkFault where
  | check | form
deriving DecidableEq, Repr

/-- The three users of a carry (R158). -/
inductive CarryUser where
  | jobs | pulls | noise
deriving DecidableEq, Repr

/-- The order in which the users take one carry. R152 and R158 give the outcome of either order and choose none, so the
command says which (log entry 5). -/
inductive CarryOrder where
  | jobsPullsNoise | jobsNoisePulls | pullsJobsNoise | pullsNoiseJobs | noiseJobsPulls | noisePullsJobs
deriving DecidableEq, Repr

/-- The commands. A request carries its request number `num`, the body length `len` that its frame had (R5 compares it
with the length of table 11.3; with another length the fields are not read), and its fields at the widths of R175. -/
inductive Instr where
  -- requests of Power and Hold Control and the Timebase
  | provision (num : Byte) (len : Nat) (capacity : Lba64) (dataSize : Half) (owner lorRead lorWrite : Byte)
  | status (num : Byte) (len : Nat)
  | reset (num : Byte) (len : Nat)
  | setInterval (num : Byte) (len : Nat) (index : Byte)
  | doze (num : Byte) (len : Nat)
  | deep (num : Byte) (len : Nat)
  | releaseHold (num : Byte) (len : Nat)
  -- requests of the Profile Map
  | setProfile (num : Byte) (len : Nat) (profile : Byte) (unitSize : Half) (metaSize handling : Byte)
  | setStream (num : Byte) (len : Nat) (stream profile cls : Byte)
  -- requests of the Range Table
  | defineRange (num : Byte) (len : Nat) (range : Byte) (base length : Lba48) (owner lorRead lorWrite : Byte)
  | bindKey (num : Byte) (len : Nat) (range slot : Byte)
  | lockRange (num : Byte) (len : Nat) (range readSelect writeSelect : Byte)
  | unlockRange (num : Byte) (len : Nat) (range readSelect writeSelect : Byte)
  | queryRange (num : Byte) (len : Nat) (range : Byte)
  -- requests of the Authority Block
  | enrol (num : Byte) (len : Nat) (auth : Byte) (blob : VerifierBlob)
  | createAuthority (num : Byte) (len : Nat) (auth : Byte) (cred : Credential)
  | unlockAuthority (num : Byte) (len : Nat) (auth : Byte) (cred : Credential)
  | sealAuthority (num : Byte) (len : Nat) (auth : Byte)
  | setCredential (num : Byte) (len : Nat) (auth : Byte) (cred : Credential)
  -- requests of the Key Store
  | loadKey (num : Byte) (len : Nat) (slot auth : Byte) (blob : KeyBlob)
  | generateKey (num : Byte) (len : Nat) (slot auth : Byte)
  | purgeKey (num : Byte) (len : Nat) (slot : Byte)
  | querySlot (num : Byte) (len : Nat) (slot : Byte)
  -- requests of the Job Table
  | openJob (num : Byte) (len : Nat) (stream direction : Byte) (first : Lba48) (count : Half)
  | endJob (num : Byte) (len : Nat) (tag : Byte)
  | queryJob (num : Byte) (len : Nat) (tag : Byte)
  -- requests of the Sweep Engine
  | startSweep (num : Byte) (len : Nat) (range newSlot profile limit cls : Byte) (start : Lba64) (startPaused : Byte)
  | pauseSweep (num : Byte) (len : Nat)
  | cancelSweep (num : Byte) (len : Nat)
  | resumeSweep (num : Byte) (len : Nat)
  | abandonSweep (num : Byte) (len : Nat)
  | sweepCommit (num : Byte) (len : Nat) (pull : Half)
  -- other frames
  | unknownRequest (kind num : Byte)
  | frameDiscarded (bytes : List Byte)
  | jobSectorIn (tag index : Byte) (payload : List Byte)
  | sweepSectorIn (pull : Half) (offset : Byte) (unwritten : Bool) (payload : List Byte)
  -- the transmitter
  | transmitStart
  | frameSent
  -- the Lane Arbiter and the lanes; `error1` and `error2` are what the lane's main path got wrong in block 0 of unit 0 in
  -- the first and in the second pass (zero for a sound lane; a job sector has one pass)
  | laneGrant
  | laneCompletion (lane : LaneNo) (error1 error2 : Block)
  -- the wrap unit
  | wrapUnitStart
  | unwrapComplete
  | generationComplete
  | checkComplete
  | creationComplete
  | rewrapComplete
  -- the timebase and the noise circuit
  | tick (order : CarryOrder)
  | jobStall (order : CarryOrder)
  | pullStall (order : CarryOrder)
  | noiseHealthy (order : CarryOrder)
  | noiseRetry (order : CarryOrder)
  | sampleTestFailure
  -- resets and lines
  | powerOnReset
  | lineReset
  | supplyWarning
  | resetEnd
  -- parts of an event that the table also lists
  | deepEntry
  | drainComplete (slot : SlotNo)
  | jobLeave (tag : Tag)
  | jobAdmission (tag : Tag)
  | issueStep
  | sweepPauseComplete
deriving DecidableEq, Repr

end Sys2Proof
end

