-- ==== Sys2Proof/Decode.lean ====
section
/-! DEFINITION. From the bytes of a received frame to the command it is (spec/01 R3, R5; spec/11), and back. -/

namespace Sys2Proof

open Machine

/-- The code of a request kind (11.3). -/
def Request.code : Request → Byte
  | .provision => 0x01
  | .status => 0x02
  | .reset => 0x03
  | .setInterval => 0x04
  | .doze => 0x05
  | .deep => 0x06
  | .releaseHold => 0x07
  | .setProfile => 0x10
  | .setStream => 0x11
  | .defineRange => 0x20
  | .bindKey => 0x21
  | .lockRange => 0x22
  | .unlockRange => 0x23
  | .queryRange => 0x24
  | .enrol => 0x30
  | .createAuthority => 0x31
  | .unlockAuthority => 0x32
  | .sealAuthority => 0x33
  | .setCredential => 0x34
  | .loadKey => 0x40
  | .generateKey => 0x41
  | .purgeKey => 0x42
  | .querySlot => 0x43
  | .openJob => 0x50
  | .endJob => 0x51
  | .queryJob => 0x52
  | .startSweep => 0x60
  | .pauseSweep => 0x61
  | .cancelSweep => 0x62
  | .resumeSweep => 0x63
  | .abandonSweep => 0x64
  | .sweepCommit => 0x65

/-- The body length of a request kind (11.3): the one that R5 compares. -/
def Request.bodyLength : Request → Nat
  | .provision => 15
  | .status | .reset | .doze | .deep | .releaseHold => 2
  | .setInterval => 3
  | .setProfile => 7
  | .setStream => 5
  | .defineRange => 18
  | .bindKey => 4
  | .lockRange | .unlockRange => 5
  | .queryRange => 3
  | .enrol => 51
  | .createAuthority | .unlockAuthority | .setCredential => 35
  | .sealAuthority => 3
  | .loadKey => 84
  | .generateKey => 4
  | .purgeKey | .querySlot => 3
  | .openJob => 12
  | .endJob | .queryJob => 3
  | .startSweep => 16
  | .pauseSweep | .cancelSweep | .resumeSweep | .abandonSweep => 2
  | .sweepCommit => 4

/-- The request kinds, in the order of the table of 11.3. -/
def requestKinds : List Request :=
  [.provision, .status, .reset, .setInterval, .doze, .deep, .releaseHold, .setProfile, .setStream, .defineRange,
   .bindKey, .lockRange, .unlockRange, .queryRange, .enrol, .createAuthority, .unlockAuthority, .sealAuthority,
   .setCredential, .loadKey, .generateKey, .purgeKey, .querySlot, .openJob, .endJob, .queryJob, .startSweep,
   .pauseSweep, .cancelSweep, .resumeSweep, .abandonSweep, .sweepCommit]

/-- The request kind that a kind byte names, where the part defines one (R5). -/
def requestOf (b : Byte) : Option Request := requestKinds.find? fun r => r.code == b

/-- The most bytes a frame may hold (R3, test 1). -/
def frameLimit : Nat := 4224

/-- The fewest bytes a frame may hold: the header and the check word (R3, test 2; R174). -/
def frameLeast : Nat := 7

/-- The bytes of a body that its kind begins with (R3, test 6; R174), for the kinds that the controller sends (test 4). -/
def fixedPart (kind : Byte) : Option Nat :=
  if kind = 0x01 then some 2 else if kind = 0x02 then some 2 else if kind = 0x03 then some 4 else none

/-- The tests of R3 on the bytes of a received frame, in order: the reason of the first that fails, or none. -/
def frameFault (bytes : List Byte) : Option LinkFault :=
  let n := bytes.length
  if n > frameLimit then some .form
  else if n < frameLeast then some .form
  else if leOf 4 (checkWord (bytes.take (n - 4))) ≠ bytes.drop (n - 4) then some .check
  else match fixedPart (bytes.headD 0) with
    | none => some .form
    | some fixed =>
      let l := leNat ((bytes.drop 1).take 2)
      if l ≠ n - frameLeast then some .form
      else if l < fixed then some .form
      else none

/-- The field of `w` bytes at byte `i`. -/
def fieldAt (w i : Nat) (bytes : List Byte) : BitVec (8 * w) := leTo (8 * w) ((bytes.drop i).take w)

/-- The request of kind `r` with number `num`, body length `len`, and the fields that follow kind and number (11.3). -/
def requestFrom (r : Request) (num : Byte) (len : Nat) (f : List Byte) : Instr :=
  match r with
  | .provision =>
    .provision num len (fieldAt 8 0 f) (fieldAt 2 8 f) (fieldAt 1 10 f) (fieldAt 1 11 f) (fieldAt 1 12 f)
  | .status => .status num len
  | .reset => .reset num len
  | .setInterval => .setInterval num len (fieldAt 1 0 f)
  | .doze => .doze num len
  | .deep => .deep num len
  | .releaseHold => .releaseHold num len
  | .setProfile => .setProfile num len (fieldAt 1 0 f) (fieldAt 2 1 f) (fieldAt 1 3 f) (fieldAt 1 4 f)
  | .setStream => .setStream num len (fieldAt 1 0 f) (fieldAt 1 1 f) (fieldAt 1 2 f)
  | .defineRange =>
    .defineRange num len (fieldAt 1 0 f) (fieldAt 6 1 f) (fieldAt 6 7 f) (fieldAt 1 13 f) (fieldAt 1 14 f)
      (fieldAt 1 15 f)
  | .bindKey => .bindKey num len (fieldAt 1 0 f) (fieldAt 1 1 f)
  | .lockRange => .lockRange num len (fieldAt 1 0 f) (fieldAt 1 1 f) (fieldAt 1 2 f)
  | .unlockRange => .unlockRange num len (fieldAt 1 0 f) (fieldAt 1 1 f) (fieldAt 1 2 f)
  | .queryRange => .queryRange num len (fieldAt 1 0 f)
  | .enrol => .enrol num len (fieldAt 1 0 f) (fieldAt 48 1 f)
  | .createAuthority => .createAuthority num len (fieldAt 1 0 f) (fieldAt 32 1 f)
  | .unlockAuthority => .unlockAuthority num len (fieldAt 1 0 f) (fieldAt 32 1 f)
  | .sealAuthority => .sealAuthority num len (fieldAt 1 0 f)
  | .setCredential => .setCredential num len (fieldAt 1 0 f) (fieldAt 32 1 f)
  | .loadKey => .loadKey num len (fieldAt 1 0 f) (fieldAt 1 1 f) (fieldAt 80 2 f)
  | .generateKey => .generateKey num len (fieldAt 1 0 f) (fieldAt 1 1 f)
  | .purgeKey => .purgeKey num len (fieldAt 1 0 f)
  | .querySlot => .querySlot num len (fieldAt 1 0 f)
  | .openJob => .openJob num len (fieldAt 1 0 f) (fieldAt 1 1 f) (fieldAt 6 2 f) (fieldAt 2 8 f)
  | .endJob => .endJob num len (fieldAt 1 0 f)
  | .queryJob => .queryJob num len (fieldAt 1 0 f)
  | .startSweep =>
    .startSweep num len (fieldAt 1 0 f) (fieldAt 1 1 f) (fieldAt 1 2 f) (fieldAt 1 3 f) (fieldAt 1 4 f)
      (fieldAt 8 5 f) (fieldAt 1 13 f)
  | .pauseSweep => .pauseSweep num len
  | .cancelSweep => .cancelSweep num len
  | .resumeSweep => .resumeSweep num len
  | .abandonSweep => .abandonSweep num len
  | .sweepCommit => .sweepCommit num len (fieldAt 2 0 f)

/-- The command that a frame of the given kind and body is, once it has passed the tests of R3. -/
def commandFrom (kind : Byte) (body : List Byte) : Instr :=
  if kind = 0x01 then
    let k := body.headD 0
    let num := (body.drop 1).headD 0
    match requestOf k with
    | none => .unknownRequest k num
    | some r => requestFrom r num body.length (body.drop 2)
  else if kind = 0x02 then
    .jobSectorIn (fieldAt 1 0 body) (fieldAt 1 1 body) (body.drop 2)
  else
    .sweepSectorIn (fieldAt 2 0 body) (fieldAt 1 2 body) (fieldAt 1 3 body ≠ 0) (body.drop 4)

/-- The command that the end of a received frame is: total on any bytes. A line coding start and end with no bytes between
them is link idle and no frame (R1). -/
def receive (bytes : List Byte) : Option Instr :=
  if bytes = [] then none
  else match frameFault bytes with
    | some _ => some (.frameDiscarded bytes)
    | none => some (commandFrom (bytes.headD 0) ((bytes.drop 3).take (bytes.length - frameLeast)))

/-- The request kind of a command that is a request of a defined kind. -/
def Instr.request : Instr → Option Request
  | .provision .. => some .provision
  | .status .. => some .status
  | .reset .. => some .reset
  | .setInterval .. => some .setInterval
  | .doze .. => some .doze
  | .deep .. => some .deep
  | .releaseHold .. => some .releaseHold
  | .setProfile .. => some .setProfile
  | .setStream .. => some .setStream
  | .defineRange .. => some .defineRange
  | .bindKey .. => some .bindKey
  | .lockRange .. => some .lockRange
  | .unlockRange .. => some .unlockRange
  | .queryRange .. => some .queryRange
  | .enrol .. => some .enrol
  | .createAuthority .. => some .createAuthority
  | .unlockAuthority .. => some .unlockAuthority
  | .sealAuthority .. => some .sealAuthority
  | .setCredential .. => some .setCredential
  | .loadKey .. => some .loadKey
  | .generateKey .. => some .generateKey
  | .purgeKey .. => some .purgeKey
  | .querySlot .. => some .querySlot
  | .openJob .. => some .openJob
  | .endJob .. => some .endJob
  | .queryJob .. => some .queryJob
  | .startSweep .. => some .startSweep
  | .pauseSweep .. => some .pauseSweep
  | .cancelSweep .. => some .cancelSweep
  | .resumeSweep .. => some .resumeSweep
  | .abandonSweep .. => some .abandonSweep
  | .sweepCommit .. => some .sweepCommit
  | .unknownRequest .. | .frameDiscarded .. | .jobSectorIn .. | .sweepSectorIn .. => none
  | .transmitStart | .frameSent | .laneGrant | .laneCompletion .. => none
  | .wrapUnitStart | .unwrapComplete | .generationComplete | .checkComplete | .creationComplete | .rewrapComplete => none
  | .tick .. | .jobStall .. | .pullStall .. | .noiseHealthy .. | .noiseRetry .. | .sampleTestFailure => none
  | .powerOnReset | .lineReset | .supplyWarning | .resetEnd => none
  | .deepEntry | .drainComplete .. | .jobLeave .. | .jobAdmission .. | .issueStep | .sweepPauseComplete => none

/-- The request number of a command that is a request (R1). -/
def Instr.requestNumber : Instr → Option Byte
  | .provision num .. | .status num .. | .reset num .. | .setInterval num .. | .doze num .. | .deep num ..
  | .releaseHold num .. | .setProfile num .. | .setStream num .. | .defineRange num .. | .bindKey num ..
  | .lockRange num .. | .unlockRange num .. | .queryRange num .. | .enrol num .. | .createAuthority num ..
  | .unlockAuthority num .. | .sealAuthority num .. | .setCredential num .. | .loadKey num .. | .generateKey num ..
  | .purgeKey num .. | .querySlot num .. | .openJob num .. | .endJob num .. | .queryJob num .. | .startSweep num ..
  | .pauseSweep num .. | .cancelSweep num .. | .resumeSweep num .. | .abandonSweep num .. | .sweepCommit num .. =>
    some num
  | .unknownRequest _ num => some num
  | .frameDiscarded .. | .jobSectorIn .. | .sweepSectorIn .. => none
  | .transmitStart | .frameSent | .laneGrant | .laneCompletion .. => none
  | .wrapUnitStart | .unwrapComplete | .generationComplete | .checkComplete | .creationComplete | .rewrapComplete => none
  | .tick .. | .jobStall .. | .pullStall .. | .noiseHealthy .. | .noiseRetry .. | .sampleTestFailure => none
  | .powerOnReset | .lineReset | .supplyWarning | .resetEnd => none
  | .deepEntry | .drainComplete .. | .jobLeave .. | .jobAdmission .. | .issueStep | .sweepPauseComplete => none

/-- The body length that a request command carries (R5). -/
def Instr.bodyLength : Instr → Option Nat
  | .provision _ len .. | .status _ len .. | .reset _ len .. | .setInterval _ len .. | .doze _ len .. | .deep _ len ..
  | .releaseHold _ len .. | .setProfile _ len .. | .setStream _ len .. | .defineRange _ len .. | .bindKey _ len ..
  | .lockRange _ len .. | .unlockRange _ len .. | .queryRange _ len .. | .enrol _ len .. | .createAuthority _ len ..
  | .unlockAuthority _ len .. | .sealAuthority _ len .. | .setCredential _ len .. | .loadKey _ len ..
  | .generateKey _ len .. | .purgeKey _ len .. | .querySlot _ len .. | .openJob _ len .. | .endJob _ len ..
  | .queryJob _ len .. | .startSweep _ len .. | .pauseSweep _ len .. | .cancelSweep _ len .. | .resumeSweep _ len ..
  | .abandonSweep _ len .. | .sweepCommit _ len .. => some len
  | .unknownRequest .. | .frameDiscarded .. | .jobSectorIn .. | .sweepSectorIn .. => none
  | .transmitStart | .frameSent | .laneGrant | .laneCompletion .. => none
  | .wrapUnitStart | .unwrapComplete | .generationComplete | .checkComplete | .creationComplete | .rewrapComplete => none
  | .tick .. | .jobStall .. | .pullStall .. | .noiseHealthy .. | .noiseRetry .. | .sampleTestFailure => none
  | .powerOnReset | .lineReset | .supplyWarning | .resetEnd => none
  | .deepEntry | .drainComplete .. | .jobLeave .. | .jobAdmission .. | .issueStep | .sweepPauseComplete => none

/-- The field bytes of a request, after kind and number, in the order of 11.3. -/
def Instr.fieldBytes : Instr → List Byte
  | .provision _ _ c d owner lr lw => leOf 8 c ++ leOf 2 d ++ [owner, lr, lw]
  | .setInterval _ _ index => [index]
  | .setProfile _ _ p u m h => [p] ++ leOf 2 u ++ [m, h]
  | .setStream _ _ st p c => [st, p, c]
  | .defineRange _ _ r base length owner lr lw => [r] ++ leOf 6 base ++ leOf 6 length ++ [owner, lr, lw]
  | .bindKey _ _ r slot => [r, slot]
  | .lockRange _ _ r rs ws | .unlockRange _ _ r rs ws => [r, rs, ws]
  | .queryRange _ _ r => [r]
  | .enrol _ _ a blob => [a] ++ leOf 48 blob
  | .createAuthority _ _ a cred | .unlockAuthority _ _ a cred | .setCredential _ _ a cred => [a] ++ leOf 32 cred
  | .sealAuthority _ _ a => [a]
  | .loadKey _ _ slot a blob => [slot, a] ++ leOf 80 blob
  | .generateKey _ _ slot a => [slot, a]
  | .purgeKey _ _ slot | .querySlot _ _ slot => [slot]
  | .openJob _ _ st dir first count => [st, dir] ++ leOf 6 first ++ leOf 2 count
  | .endJob _ _ tag | .queryJob _ _ tag => [tag]
  | .startSweep _ _ r slot p limit c start paused => [r, slot, p, limit, c] ++ leOf 8 start ++ [paused]
  | .sweepCommit _ _ pull => leOf 2 pull
  | .status .. | .reset .. | .doze .. | .deep .. | .releaseHold .. => []
  | .pauseSweep .. | .cancelSweep .. | .resumeSweep .. | .abandonSweep .. => []
  | .unknownRequest .. | .frameDiscarded .. | .jobSectorIn .. | .sweepSectorIn .. => []
  | .transmitStart | .frameSent | .laneGrant | .laneCompletion .. => []
  | .wrapUnitStart | .unwrapComplete | .generationComplete | .checkComplete | .creationComplete | .rewrapComplete => []
  | .tick .. | .jobStall .. | .pullStall .. | .noiseHealthy .. | .noiseRetry .. | .sampleTestFailure => []
  | .powerOnReset | .lineReset | .supplyWarning | .resetEnd => []
  | .deepEntry | .drainComplete .. | .jobLeave .. | .jobAdmission .. | .issueStep | .sweepPauseComplete => []

/-- The frame that the controller sends for a command that is a frame: a request with the body length of its kind, a
sector-in, a request of an undefined kind with no further fields, or a frame that is to be discarded. -/
def Instr.frame (i : Instr) : Option (List Byte) :=
  match i with
  | .frameDiscarded bytes => some bytes
  | .jobSectorIn tag index payload => some (envelope 0x02 ([tag, index] ++ payload))
  | .sweepSectorIn pull offset unwritten payload =>
    some (envelope 0x03 (leOf 2 pull ++ [offset, if unwritten then 1 else 0] ++ payload))
  | .unknownRequest kind num => some (envelope 0x01 [kind, num])
  | i =>
    match i.request, i.requestNumber with
    | some r, some num => some (envelope 0x01 (r.code :: num :: i.fieldBytes))
    | _, _ => none

/-- No row of spec/opcode_table.json gives bits, so no word spells a command. -/
def decodeTableWord (_nbits _w : Nat) : Option Instr := none

end Sys2Proof
end

