-- ==== Sys2Proof/Machine/Table.lean ====
section
/-! DEFINITION. A table of a fixed number of records, such as the 32 job entries or the 20 key slots. -/

namespace Sys2Proof

/-- `n` records of one kind, numbered from 0. -/
structure Table (α : Type) (n : Nat) where
  rows : List α
  size : rows.length = n
deriving DecidableEq, Repr

/-- The record with number `i`. -/
def Table.get {α : Type} {n : Nat} (t : Table α n) (i : Fin n) : α :=
  t.rows[i.val]'(by rw [t.size]; exact i.isLt)

/-- The table with record `i` replaced. -/
def Table.set {α : Type} {n : Nat} (t : Table α n) (i : Fin n) (x : α) : Table α n :=
  ⟨t.rows.set i.val x, by rw [List.length_set, t.size]⟩

/-- The table with record `i` changed by `f`. -/
def Table.update {α : Type} {n : Nat} (t : Table α n) (i : Fin n) (f : α → α) : Table α n :=
  t.set i (f (t.get i))

/-- A table whose records are all `x`. -/
def Table.replicate {α : Type} (n : Nat) (x : α) : Table α n :=
  ⟨List.replicate n x, List.length_replicate⟩

/-- Every record changed by `f`. -/
def Table.map {α β : Type} {n : Nat} (f : α → β) (t : Table α n) : Table β n :=
  ⟨t.rows.map f, by rw [List.length_map, t.size]⟩

/-- The table whose record `i` is `f i`. -/
def Table.ofFn {α : Type} {n : Nat} (f : Fin n → α) : Table α n :=
  ⟨List.ofFn f, List.length_ofFn⟩

/-- The numbers of the records that satisfy `p`, ascending. -/
def Table.numbers {α : Type} {n : Nat} (t : Table α n) (p : α → Bool) : List (Fin n) :=
  (List.finRange n).filter fun i => p (t.get i)

/-- The lowest number of a record that satisfies `p`. -/
def Table.lowest {α : Type} {n : Nat} (t : Table α n) (p : α → Bool) : Option (Fin n) :=
  (List.finRange n).find? fun i => p (t.get i)

/-- How many records satisfy `p`. -/
def Table.count {α : Type} {n : Nat} (t : Table α n) (p : α → Bool) : Nat :=
  t.rows.countP p

/-- Whether some record satisfies `p`. -/
def Table.any {α : Type} {n : Nat} (t : Table α n) (p : α → Bool) : Bool :=
  t.rows.any p

/-- Whether every record satisfies `p`. -/
def Table.all {α : Type} {n : Nat} (t : Table α n) (p : α → Bool) : Bool :=
  t.rows.all p

end Sys2Proof
end

