-- ==== Sys2Proof/Machine/State.lean ====
section
/-! DEFINITION. The state of the part: every record, queue, counter and mode that spec/ gives it, the frames it sends, and
its value after a power-on reset. -/

namespace Sys2Proof.Machine

/-! ### Sector formats (R18, R19) -/

/-- A size of 512 or 4096 bytes: the data size D (R17) or a unit size U (R18). -/
inductive DataSize where
  | b512 | b4096
deriving DecidableEq, Repr

/-- A metadata size M: 0, 8 or 64 bytes (R18). -/
inductive MetaSize where
  | m0 | m8 | m64
deriving DecidableEq, Repr

/-- What becomes of the metadata (R18). -/
inductive Handling where
  | pass | cipher
deriving DecidableEq, Repr

/-- A sector format: the fields of a profile record (R18), copied into a job (R24) and a Lane Queue entry (R25). -/
structure Format where
  unitSize : DataSize
  metaSize : MetaSize
  handling : Handling
deriving DecidableEq, Repr

/-- A stream record (R19). -/
structure StreamRec where
  profile : ProfileNo
  cls : ClassNo
deriving DecidableEq, Repr

/-! ### Ranges (R28 to R30) -/

/-- The provisioning record (R28). -/
structure Provisioning where
  capacity : Nat
  dataSize : DataSize
  owner : AuthNo
  lorRead : Bool
  lorWrite : Bool
deriving DecidableEq, Repr

/-- What a DEFINED range has besides its locks and slots (R29). -/
structure RangeDef where
  base : Nat
  length : Nat
  owner : AuthNo
  lorRead : Bool
  lorWrite : Bool
deriving DecidableEq, Repr

/-- A range record. `definition` is present exactly when the range is DEFINED; range 0 never has one, since its owner and
flags are in the provisioning record (R29, R30). -/
structure RangeRec where
  definition : Option RangeDef
  readLock : Bool
  writeLock : Bool
  active : Option SlotNo
  pending : Option SlotNo
deriving DecidableEq, Repr

/-- The range state that a report gives (R34). -/
inductive RangeState where
  | undefined | defined | global
deriving DecidableEq, Repr

/-! ### Authorities (R49) -/

inductive AuthState where
  | notEnrolled | sealed | checking | opened | barred
deriving DecidableEq, Repr

/-- The operation in progress of an authority in CHECKING (R49). -/
inductive AuthOp where
  | check | create
deriving DecidableEq, Repr

/-- An authority record (R49). -/
structure Authority where
  state : AuthState
  blob : Option VerifierBlob
  key : Option AuthKey
  op : Option AuthOp
  failures : Nat
deriving DecidableEq, Repr

/-! ### Key slots, the Key Work Queue and the wrap unit (R64, R67, R68) -/

inductive SlotState where
  | empty | unwrapping | generating | ready | draining
deriving DecidableEq, Repr

/-- Why a slot drains (R64): a purge, with the request number owed a reply, or a sweep retirement. -/
inductive DrainCause where
  | purge (num : Byte)
  | retire
deriving DecidableEq, Repr

/-- A key slot record (R64). -/
structure KeySlot where
  state : SlotState
  auth : Option AuthNo
  key : Option KeyMaterial
  laneCount : Nat
  drain : Option DrainCause
deriving DecidableEq, Repr

/-- The kinds of operation of the wrap unit, each with the authority, slot and secret item it carries (R67). -/
inductive WorkOp where
  | unwrap (auth : AuthNo) (slot : SlotNo) (blob : KeyBlob)
  | generation (auth : AuthNo) (slot : SlotNo)
  | check (auth : AuthNo) (cred : Credential)
  | creation (auth : AuthNo) (cred : Credential)
  | rewrap (auth : AuthNo) (cred : Credential)
deriving DecidableEq, Repr

/-- An entry of the Key Work Queue (R67). -/
structure WorkItem where
  op : WorkOp
  num : Byte
  noiseLost : Bool
deriving DecidableEq, Repr

/-- The operation that the wrap unit runs, the authority key it took at its start (R68), and the tick of the start (the
model's own, log entry 8). -/
structure Running where
  item : WorkItem
  key : Option AuthKey
  since : Ticks
deriving DecidableEq, Repr

/-- The noise source's health (R76). -/
inductive NoiseState where
  | stopped | warming | healthy | degraded
deriving DecidableEq, Repr

/-! ### Buffers, the Lane Queue and the lanes (R9, R110, R112) -/

/-- A buffer of the pool: 16 job buffers and 4 sweep buffers, apart (R9). -/
inductive BufRef where
  | job (i : Fin 16)
  | sweep (i : Fin 4)
deriving DecidableEq, Repr

/-- The owner of an accepted sector: a job's tag and the index, or a pull's number and the offset (R9). `uid` tells the
job or pull from others that bear the same tag or number at other times (log entry 4). -/
inductive Owner where
  | job (uid : Nat) (tag : Tag) (index : Nat)
  | pull (uid : Nat) (number : Half) (offset : Nat)
deriving DecidableEq, Repr

inductive Stage where
  | awaiting | inLane | finished
deriving DecidableEq, Repr

/-- A taken buffer (R9). -/
structure Buffer where
  owner : Owner
  stage : Stage
  payload : List Byte
deriving DecidableEq, Repr

/-- What a lane is to do, and under which slots (R110). -/
inductive LaneOp where
  | encipher (slot : SlotNo)
  | decipher (slot : SlotNo)
  | recipher (old new : SlotNo)
deriving DecidableEq, Repr

/-- A Lane Queue entry (R110). -/
structure QueueEntry where
  owner : Owner
  buffer : BufRef
  lba : Nat
  op : LaneOp
  cls : ClassNo
  format : Format
  arrival : Nat
deriving DecidableEq, Repr

/-- What a BUSY lane does, with its copies of the key material (R111). -/
inductive LaneTask where
  | encipher (key : KeyMaterial)
  | decipher (key : KeyMaterial)
  | recipher (oldKey newKey : KeyMaterial)
deriving DecidableEq, Repr

/-- The record of a BUSY lane (R111, R112). `counted` lists the slots against which the sector is still counted, one for
each count it raised and from which it has not been detached (R66); `since` is the tick of the grant (log entry 8). -/
structure LaneWork where
  owner : Owner
  buffer : BufRef
  lba : Nat
  task : LaneTask
  format : Format
  counted : List SlotNo
  since : Ticks
deriving DecidableEq, Repr

/-- A lane (R112). -/
inductive Lane where
  | idle
  | busy (work : LaneWork)
  | offline
deriving DecidableEq, Repr

/-- The lane state that a report gives (R175). -/
inductive LaneState where
  | idle | busy | offline
deriving DecidableEq, Repr

/-! ### Jobs (R85, R86) -/

inductive JobState where
  | waiting | opened | ending
deriving DecidableEq, Repr

/-- ENCIPHER for writes, DECIPHER for reads (R85). -/
inductive Direction where
  | encipher | decipher
deriving DecidableEq, Repr

inductive KeyRole where
  | active | pending
deriving DecidableEq, Repr

/-- A segment record (R86). -/
structure Segment where
  first : Nat
  count : Nat
  range : RangeNo
  slot : SlotNo
  role : KeyRole
deriving DecidableEq, Repr

/-- The reasons for which a job ends, a waiting job is removed, or a sweep is paused (11.6). -/
inductive EndReason where
  | cancelled | locked | stalled | laneFault | power | noKey | splitLimit
deriving DecidableEq, Repr

/-- A finished job sector that waits in the reorder set (R85, R96). -/
structure JobFinished where
  index : Nat
  buffer : BufRef
deriving DecidableEq, Repr

/-- A job entry that is not free (R85). Its tag is its place in the table. -/
structure Job where
  uid : Nat
  state : JobState
  stream : StreamNo
  profile : ProfileNo
  format : Format
  cls : ClassNo
  direction : Direction
  first : Nat
  count : Nat
  segments : List Segment
  nextIn : Nat
  nextOut : Nat
  reorder : List JobFinished
  age : Nat
  openTick : Option Ticks
  reason : Option EndReason
  owed : Option Byte
deriving DecidableEq, Repr

/-! ### The sweep (R127, R129) -/

/-- A finished sweep sector that waits in its pull's reorder set: with its buffer, or UNWRITTEN with none (R12, R137). -/
structure PullFinished where
  offset : Nat
  buffer : Option BufRef
deriving DecidableEq, Repr

/-- An outstanding pull (R129). -/
structure Pull where
  uid : Nat
  number : Half
  first : Nat
  count : Nat
  received : Nat
  handedOver : Nat
  sent : Nat
  reorder : List PullFinished
  committed : Bool
  age : Nat
deriving DecidableEq, Repr

/-- The states of a sweep that is not IDLE (R127). -/
inductive SweepState where
  | running | pausing | paused
deriving DecidableEq, Repr

/-- The sweep record while the sweep is not IDLE (R127), with the blocked field of its report (R130). -/
structure Sweep where
  state : SweepState
  range : RangeNo
  oldSlot : SlotNo
  newSlot : SlotNo
  profile : ProfileNo
  cls : ClassNo
  limit : Nat
  committed : Nat
  issued : Nat
  pulls : List Pull
  checkpoint : Nat
  blocked : Bool
deriving DecidableEq, Repr

/-! ### Power, hold and resets (R164, R166) -/

inductive PowerState where
  | active | doze | deep
deriving DecidableEq, Repr

inductive ResetCause where
  | power | line | link
deriving DecidableEq, Repr

/-- The reset cause record (R166). -/
structure CauseRecord where
  last : ResetCause
  power : Bool
  line : Bool
  link : Bool
deriving DecidableEq, Repr

/-! ### The frames that the part sends (R1, R7) -/

/-- The reply codes (11.7). -/
inductive ReplyCode where
  | ok | unknownRequest | badField | notProvisioned | alreadySet | tableFull | locked | noKey | beyondEnd | splitLimit
  | held | noLane | inUse | overlap | sweeping | notSweeping | migrated | incomplete | stale | notAuthorised | barred
  | badCredential | badBlob | slotBusy | slotEmpty | noiseNotReady | noiseLost | busy | power | reset
deriving DecidableEq, Repr

/-- The sector-out codes (11.5). -/
inductive SectorCode where
  | ok | noBuffer | order | length | unknownJob | notAdmitted | stale | unwritten | laneFault
deriving DecidableEq, Repr

/-- The range report (R34). -/
structure RangeReport where
  range : RangeNo
  state : RangeState
  base : Option Nat
  extent : Option Nat
  owner : Option AuthNo
  lorRead : Option Bool
  lorWrite : Option Bool
  readLock : Bool
  writeLock : Bool
  active : Option SlotNo
  pending : Option SlotNo
  openJobs : Nat
  waitingJobs : Nat
deriving DecidableEq, Repr

/-- The authority report (R51). -/
structure AuthorityReport where
  auth : AuthNo
  state : AuthState
  op : Option AuthOp
  verifierHeld : Bool
  failures : Nat
deriving DecidableEq, Repr

/-- The drain cause that a report gives (R65). -/
inductive DrainKind where
  | purge | retire
deriving DecidableEq, Repr

/-- The slot report (R65). -/
structure SlotReport where
  slot : SlotNo
  state : SlotState
  auth : Option AuthNo
  laneCount : Nat
  activeRefs : Nat
  pendingRef : Bool
  drain : Option DrainKind
  queueEntries : Nat
  wrapBusy : Bool
  noise : NoiseState
deriving DecidableEq, Repr

/-- What the job report gives of an entry that is not free (R105). -/
structure JobView where
  state : JobState
  stream : StreamNo
  profile : ProfileNo
  cls : ClassNo
  direction : Direction
  first : Nat
  count : Nat
  segments : List Segment
  nextIn : Nat
  nextOut : Nat
  buffersHeld : Nat
  reorderEntries : Option Nat
  age : Option Nat
  openTick : Option Ticks
  reason : Option EndReason
  position : Option Nat
deriving DecidableEq, Repr

/-- The job report (R105); no view when the entry is FREE. -/
structure JobReport where
  tag : Tag
  view : Option JobView
deriving DecidableEq, Repr

/-- What the sweep report gives of a sweep that is not IDLE (R130). -/
structure SweepView where
  state : SweepState
  range : RangeNo
  oldSlot : SlotNo
  newSlot : SlotNo
  profile : ProfileNo
  cls : ClassNo
  limit : Nat
  committed : Nat
  issued : Nat
  pulls : Nat
  sectors : Nat
  blocked : Bool
deriving DecidableEq, Repr

/-- The sweep report (R130); no view when the sweep is IDLE. -/
structure SweepReport where
  view : Option SweepView
  nextPull : Half
deriving DecidableEq, Repr

/-- The status body (R166). -/
structure StatusBody where
  cause : CauseRecord
  power : PowerState
  hold : Bool
  lanes : Table LaneState 4
  ticks : Ticks
  interval : Fin 4
  prov : Option Provisioning
  noise : NoiseState
  workOps : Nat
  jobs : Nat
  auths : Table AuthorityReport 4
  sweep : SweepReport
deriving DecidableEq, Repr

/-- Whether OPEN-JOB left the job WAITING or admitted it (R89). -/
inductive Disposition where
  | waiting | admitted
deriving DecidableEq, Repr

/-- The reply bodies (11.4). -/
inductive ReplyBody where
  | none
  | provisioning (p : Provisioning)
  | status (b : StatusBody)
  | interval (index : Fin 4) (ticks : Ticks)
  | hold (flag : Bool) (lanes : Table LaneState 4)
  | profile (f : Format)
  | stream (r : StreamRec)
  | range (r : RangeReport)
  | authority (r : AuthorityReport) (blob : Option VerifierBlob)
  | slot (r : SlotReport) (blob : Option KeyBlob)
  | opened (tag : Tag) (d : Disposition)
  | failedRange (r : RangeNo)
  | segmentCount (n : Nat)
  | ended (tag : Tag) (reason : EndReason) (nextIn delivered : Nat)
  | job (r : JobReport)
  | sweep (r : SweepReport)
deriving DecidableEq, Repr

inductive CheckpointCause where
  | multiple | final
deriving DecidableEq, Repr

/-- What became of the old slot at a sweep's finish (R151). -/
inductive SlotOutcome where
  | kept | empty | draining
deriving DecidableEq, Repr

inductive PowerCause where
  | request | supply
deriving DecidableEq, Repr

/-- The notices (R8, 11.6). -/
inductive Notice where
  | started (cause : ResetCause)
  | jobAdmitted (tag : Tag) (segments : Nat)
  | jobDone (tag : Tag) (count : Nat) (elapsed : Ticks)
  | jobEnded (tag : Tag) (reason : EndReason) (nextIn delivered : Nat)
  | sweepPull (number : Half) (range : RangeNo) (first count : Nat)
  | sweepCheckpoint (range : RangeNo) (oldSlot newSlot : SlotNo) (profile : ProfileNo) (committed : Nat)
      (cause : CheckpointCause)
  | sweepPaused (range : RangeNo) (committed : Nat) (reason : Option EndReason) (pull : Option Half)
  | sweepDone (range : RangeNo) (active : Option SlotNo) (oldSlot : SlotNo) (outcome : SlotOutcome)
  | noiseHealth (state : NoiseState)
  | hold (lane : LaneNo)
  | powerState (state : PowerState) (cause : PowerCause)
  | linkError (reason : LinkFault) (bytes : Nat)
deriving DecidableEq, Repr

/-- A frame of the transmit order. A sector-out that belongs to a job's or a pull's order (code OK or UNWRITTEN) names its
`owner`; a refusal or a LANE-FAULT sector-out belongs to none (R8, R11, R149). `buffer` is the buffer that its sending
frees (R13). -/
inductive OutFrame where
  | reply (kind num : Byte) (code : ReplyCode) (body : ReplyBody)
  | jobSector (tag index : Byte) (code : SectorCode) (buffer : Option BufRef) (owner : Option Nat)
  | sweepSector (pull : Half) (offset : Byte) (code : SectorCode) (buffer : Option BufRef) (owner : Option Nat)
  | notice (n : Notice)
deriving DecidableEq, Repr

/-! ### Faults, refusals, the state -/

/-- The machine's faults: none. Every event of the part, a lane fault among them (R121), leaves it running, so no meaning
stops the machine. Safe. -/
inductive Fault where
deriving DecidableEq, Repr

/-- The machine's refusals. -/
inductive Refusal where
  /-- Raised by `exec` alone, for a command that has no meaning yet. Safe: nothing can be proved of its effect. No arm
  raises it now. -/
  | notModelled (mnemonic : String)
deriving DecidableEq, Repr

/-- The part. The fields stand in the order of the blocks of spec/00 section 2; INVENTORY.md names the rule of each. -/
structure State where
  /-- A power-on or line reset still holds the part (R167). -/
  inReset : Bool
  /-- The bytes of the frame being received (R14, R15). -/
  receiving : List Byte
  /-- The transmit order, head first (R7). -/
  order : List OutFrame
  /-- The bytes of the head of the transmit order while it is being sent, or none while the transmitter is idle (R7). -/
  sending : Option (List Byte)
  jobPool : Table (Option Buffer) 16
  sweepPool : Table (Option Buffer) 4
  profiles : Table Format 8
  streams : Table StreamRec 8
  prov : Option Provisioning
  /-- Range records 1 to 16, and range 0's locks and slots at 0 (R29, R30). -/
  ranges : Table RangeRec 17
  auths : Table Authority 4
  slots : Table KeySlot 20
  workQueue : List WorkItem
  running : Option Running
  noise : NoiseState
  warmCount : Nat
  jobs : Table (Option Job) 32
  waiting : List Tag
  nextTag : Tag
  laneQueue : List QueueEntry
  nextArrival : Nat
  lanes : Table Lane 4
  /-- None while the sweep is IDLE (R127). -/
  sweep : Option Sweep
  nextPull : Half
  ticks : Ticks
  interval : Fin 4
  power : PowerState
  /-- The request number of a DEEP request whose reply is owed: the part is entering DEEP (R164). -/
  deepPending : Option Byte
  hold : Bool
  cause : CauseRecord
  /-- The model's own: the draws made from the noise source (log entry 2). -/
  draws : Nat
  /-- The model's own: the verifier blobs made, newest first (log entry 3). -/
  verifierLog : List MadeVerifier
  /-- The model's own: the key blobs made, newest first (log entry 3). -/
  keyLog : List MadeKey
  /-- The model's own: the number the next job or pull takes (log entry 4). -/
  nextUid : Nat
  /-- The model's own: the commands that wait, first in, first out. -/
  pending : List Instr
deriving DecidableEq, Repr

/-! ### Values after a power-on reset -/

/-- The default of every profile record (R18). -/
def Format.initial : Format := ⟨.b512, .m0, .pass⟩

/-- The default of every stream record (R19). -/
def StreamRec.initial : StreamRec := ⟨0, 2⟩

/-- An UNDEFINED range, and range 0 unlocked and unkeyed (R29, R30, R48). -/
def RangeRec.initial : RangeRec := ⟨none, false, false, none, none⟩

/-- A NOT-ENROLLED authority with the given failure count (R49, R62). -/
def Authority.initial (failures : Nat) : Authority := ⟨.notEnrolled, none, none, none, failures⟩

/-- An EMPTY slot with lane count 0 (R64). -/
def KeySlot.initial : KeySlot := ⟨.empty, none, none, 0, none⟩

/-- The part right after a power-on reset has ended (R167): STARTED has joined the empty transmit order. -/
def State.reset : State where
  inReset := false
  receiving := []
  order := [.notice (.started .power)]
  sending := none
  jobPool := Table.replicate 16 none
  sweepPool := Table.replicate 4 none
  profiles := Table.replicate 8 Format.initial
  streams := Table.replicate 8 StreamRec.initial
  prov := none
  ranges := Table.replicate 17 RangeRec.initial
  auths := Table.replicate 4 (Authority.initial 0)
  slots := Table.replicate 20 KeySlot.initial
  workQueue := []
  running := none
  noise := .warming
  warmCount := 0
  jobs := Table.replicate 32 none
  waiting := []
  nextTag := 0
  laneQueue := []
  nextArrival := 0
  lanes := Table.replicate 4 .idle
  sweep := none
  nextPull := 0
  ticks := 0
  interval := 2
  power := .active
  deepPending := none
  hold := false
  cause := ⟨.power, true, false, false⟩
  draws := 0
  verifierLog := []
  keyLog := []
  nextUid := 0
  pending := []

end Sys2Proof.Machine
end

