-- ==== Sys2Proof/Machine/Operands.lean ====
section
/-! DEFINITION. The values that request fields name, and the bytes of every frame the part sends (spec/11). -/

namespace Sys2Proof.Machine

/-! ### Sizes -/

/-- A data or unit size in bytes. -/
def DataSize.bytes : DataSize → Nat
  | .b512 => 512
  | .b4096 => 4096

/-- A metadata size in bytes. -/
def MetaSize.bytes : MetaSize → Nat
  | .m0 => 0
  | .m8 => 8
  | .m64 => 64

/-- The sector length of a format: D + M (R18). -/
def Format.sectorLength (d : DataSize) (f : Format) : Nat := d.bytes + f.metaSize.bytes

/-- A legal format for data size `d`: U ≤ D, and CIPHER only with M = 64 (R18). -/
def Format.legal (d : DataSize) (f : Format) : Bool :=
  f.unitSize.bytes ≤ d.bytes && (f.handling = .pass || f.metaSize = .m64)

/-! ### The values of request fields -/

/-- A data or unit size field: 512 or 4096 (R165, R21). -/
def dataSizeOf (v : Half) : Option DataSize :=
  if v.toNat = 512 then some .b512 else if v.toNat = 4096 then some .b4096 else none

/-- A metadata size field: 0, 8 or 64 (R21). -/
def metaSizeOf (b : Byte) : Option MetaSize :=
  if b.toNat = 0 then some .m0 else if b.toNat = 8 then some .m8 else if b.toNat = 64 then some .m64 else none

/-- A handling field (R175). -/
def handlingOf (b : Byte) : Option Handling :=
  if b = 0 then some .pass else if b = 1 then some .cipher else none

/-- A direction field (R175). -/
def directionOf (b : Byte) : Option Direction :=
  if b = 0 then some .encipher else if b = 1 then some .decipher else none

/-- A slot field that may hold none, which is 0xFF (R175, R38). -/
def slotOrNone (b : Byte) : Option (Option SlotNo) :=
  if b = 0xFF then some none else (numberBelow 20 b).map some

/-- A range field of a request that does not take range 0 (R35). -/
def definableRange (b : Byte) : Option RangeNo :=
  if b = 0 then none else numberBelow 17 b

/-- A value of a four-valued field, a value above 3 taken as 3: a class (R20) or an interval index (R159). -/
def clampToThree (b : Byte) : Fin 4 :=
  if h : b.toNat < 4 then ⟨b.toNat, h⟩ else 3

/-- A window limit: 0 is taken as 1, a limit above 64 as 64 (R131). -/
def clampLimit (b : Byte) : Nat :=
  if b.toNat = 0 then 1 else if b.toNat > 64 then 64 else b.toNat

/-! ### Codes (R175, 11.5 to 11.7) -/

def flagByte (b : Bool) : Byte := if b then 1 else 0

def natByte (n : Nat) : Byte := BitVec.ofNat 8 n

def Direction.code : Direction → Byte
  | .encipher => 0
  | .decipher => 1

def Handling.code : Handling → Byte
  | .pass => 0
  | .cipher => 1

def RangeState.code : RangeState → Byte
  | .undefined => 0
  | .defined => 1
  | .global => 2

def AuthState.code : AuthState → Byte
  | .notEnrolled => 0
  | .sealed => 1
  | .checking => 2
  | .opened => 3
  | .barred => 4

def AuthOp.code : AuthOp → Byte
  | .check => 0
  | .create => 1

def SlotState.code : SlotState → Byte
  | .empty => 0
  | .unwrapping => 1
  | .generating => 2
  | .ready => 3
  | .draining => 4

def DrainKind.code : DrainKind → Byte
  | .purge => 0
  | .retire => 1

def NoiseState.code : NoiseState → Byte
  | .stopped => 0
  | .warming => 1
  | .healthy => 2
  | .degraded => 3

/-- Job states, FREE being 0. -/
def JobState.code : JobState → Byte
  | .waiting => 1
  | .opened => 2
  | .ending => 3

def KeyRole.code : KeyRole → Byte
  | .active => 0
  | .pending => 1

def Disposition.code : Disposition → Byte
  | .waiting => 0
  | .admitted => 1

/-- Sweep states, IDLE being 0. -/
def SweepState.code : SweepState → Byte
  | .running => 1
  | .pausing => 2
  | .paused => 3

def LaneState.code : LaneState → Byte
  | .idle => 0
  | .busy => 1
  | .offline => 2

def PowerState.code : PowerState → Byte
  | .active => 0
  | .doze => 1
  | .deep => 2

def ResetCause.code : ResetCause → Byte
  | .power => 0
  | .line => 1
  | .link => 2

def CheckpointCause.code : CheckpointCause → Byte
  | .multiple => 0
  | .final => 1

def SlotOutcome.code : SlotOutcome → Byte
  | .kept => 0
  | .empty => 1
  | .draining => 2

def PowerCause.code : PowerCause → Byte
  | .request => 0
  | .supply => 1

def linkFaultCode : LinkFault → Byte
  | .check => 0
  | .form => 1

def EndReason.code : EndReason → Byte
  | .cancelled => 0x00
  | .locked => 0x01
  | .stalled => 0x02
  | .laneFault => 0x03
  | .power => 0x04
  | .noKey => 0x05
  | .splitLimit => 0x06

def SectorCode.code : SectorCode → Byte
  | .ok => 0x00
  | .noBuffer => 0x01
  | .order => 0x02
  | .length => 0x03
  | .unknownJob => 0x04
  | .notAdmitted => 0x05
  | .stale => 0x06
  | .unwritten => 0x07
  | .laneFault => 0x08

def ReplyCode.code : ReplyCode → Byte
  | .ok => 0x00
  | .unknownRequest => 0x01
  | .badField => 0x02
  | .notProvisioned => 0x03
  | .alreadySet => 0x04
  | .tableFull => 0x05
  | .locked => 0x06
  | .noKey => 0x07
  | .beyondEnd => 0x08
  | .splitLimit => 0x09
  | .held => 0x0A
  | .noLane => 0x0B
  | .inUse => 0x0C
  | .overlap => 0x0D
  | .sweeping => 0x0E
  | .notSweeping => 0x0F
  | .migrated => 0x10
  | .incomplete => 0x11
  | .stale => 0x12
  | .notAuthorised => 0x13
  | .barred => 0x14
  | .badCredential => 0x15
  | .badBlob => 0x16
  | .slotBusy => 0x17
  | .slotEmpty => 0x18
  | .noiseNotReady => 0x19
  | .noiseLost => 0x1A
  | .busy => 0x1B
  | .power => 0x1C
  | .reset => 0x1D

/-! ### Field encoding (R175) -/

/-- A field that is absent in the state reported: 0xFF in every byte of its width (R175). -/
def absent (width : Nat) : List Byte := List.replicate width 0xFF

/-- A field of `width` bytes that may be absent. -/
def optField {α : Type} (width : Nat) (f : α → List Byte) : Option α → List Byte
  | none => absent width
  | some x => f x

/-- A one-byte number that may be absent. -/
def optNumber {n : Nat} (o : Option (Fin n)) : List Byte := optField 1 (fun i => [natByte i.val]) o

/-- The provisioning record, 13 bytes (11.4). -/
def Provisioning.layout (p : Provisioning) : List Byte :=
  leBytes 8 p.capacity ++ leBytes 2 p.dataSize.bytes ++
    [natByte p.owner.val, flagByte p.lorRead, flagByte p.lorWrite]

/-- The range report, 25 bytes (R34). -/
def RangeReport.layout (r : RangeReport) : List Byte :=
  [natByte r.range.val, r.state.code] ++ optField 6 (leBytes 6) r.base ++ optField 8 (leBytes 8) r.extent ++
    optNumber r.owner ++ optField 1 (fun b => [flagByte b]) r.lorRead ++
    optField 1 (fun b => [flagByte b]) r.lorWrite ++ [flagByte r.readLock, flagByte r.writeLock] ++
    optNumber r.active ++ optNumber r.pending ++ [natByte r.openJobs, natByte r.waitingJobs]

/-- The authority report, 5 bytes (R51). -/
def AuthorityReport.layout (r : AuthorityReport) : List Byte :=
  [natByte r.auth.val, r.state.code] ++ optField 1 (fun o => [AuthOp.code o]) r.op ++
    [flagByte r.verifierHeld, natByte r.failures]

/-- The slot report, 10 bytes (R65). -/
def SlotReport.layout (r : SlotReport) : List Byte :=
  [natByte r.slot.val, r.state.code] ++ optNumber r.auth ++
    [natByte r.laneCount, natByte r.activeRefs, flagByte r.pendingRef] ++
    optField 1 (fun d => [DrainKind.code d]) r.drain ++
    [natByte r.queueEntries, flagByte r.wrapBusy, r.noise.code]

/-- A segment record, 6 bytes (11.4). -/
def Segment.layout (s : Segment) : List Byte :=
  [natByte s.first] ++ leBytes 2 s.count ++ [natByte s.range.val, natByte s.slot.val, s.role.code]

/-- The segments field of the job report: a count and four records, those beyond the count filled with 0xFF (11.4). -/
def segmentsLayout (l : List Segment) : List Byte :=
  natByte l.length :: ((l.map Segment.layout).flatten ++ absent 24).take 24

/-- What follows the tag in the job report of an entry that is not free (R105). -/
def JobView.layout (v : JobView) : List Byte :=
  [v.state.code, natByte v.stream.val, natByte v.profile.val, natByte v.cls.val, v.direction.code] ++
    leBytes 6 v.first ++ leBytes 2 v.count ++ segmentsLayout v.segments ++
    leBytes 2 v.nextIn ++ leBytes 2 v.nextOut ++ [natByte v.buffersHeld] ++
    optField 1 (fun n => [natByte n]) v.reorderEntries ++ optField 1 (fun n => [natByte n]) v.age ++
    optField 4 (leOf 4) v.openTick ++ optField 1 (fun r => [EndReason.code r]) v.reason ++
    optField 1 (fun n => [natByte n]) v.position

/-- The job report, 52 bytes (R105). -/
def JobReport.layout (r : JobReport) : List Byte :=
  natByte r.tag.val ::
    match r.view with
    | some v => v.layout
    | none => [0] ++ absent 12 ++ segmentsLayout [] ++ absent 13

/-- What precedes the next pull number in the sweep report of a sweep that is not IDLE (R130). -/
def SweepView.layout (v : SweepView) : List Byte :=
  [v.state.code, natByte v.range.val, natByte v.oldSlot.val, natByte v.newSlot.val, natByte v.profile.val,
    natByte v.cls.val, natByte v.limit] ++ leBytes 8 v.committed ++ leBytes 8 v.issued ++
    [natByte v.pulls, natByte v.sectors, flagByte v.blocked]

/-- The sweep report, 28 bytes (R130). -/
def SweepReport.layout (r : SweepReport) : List Byte :=
  (match r.view with
    | some v => v.layout
    | none => [0] ++ absent 22 ++ [0, 0, 0]) ++ leOf 2 r.nextPull

/-- The states of the four lanes, in lane order. -/
def laneStatesLayout (t : Table LaneState 4) : List Byte := t.rows.map LaneState.code

/-- The status body, 79 bytes (11.4). -/
def StatusBody.layout (b : StatusBody) : List Byte :=
  [b.cause.last.code, flagByte b.cause.power, flagByte b.cause.line, flagByte b.cause.link, b.power.code,
    flagByte b.hold] ++ laneStatesLayout b.lanes ++ leOf 4 b.ticks ++ [natByte b.interval.val] ++
    optField 13 Provisioning.layout b.prov ++ [b.noise.code, natByte b.workOps, natByte b.jobs] ++
    (b.auths.rows.map AuthorityReport.layout).flatten ++ b.sweep.layout

/-- The bytes of a reply's body after kind, number and code (11.4). -/
def ReplyBody.layout : ReplyBody → List Byte
  | .none => []
  | .provisioning p => p.layout
  | .status b => b.layout
  | .interval index ticks => natByte index.val :: leOf 4 ticks
  | .hold flag lanes => flagByte flag :: laneStatesLayout lanes
  | .profile f => leBytes 2 f.unitSize.bytes ++ [natByte f.metaSize.bytes, f.handling.code]
  | .stream r => [natByte r.profile.val, natByte r.cls.val]
  | .range r => r.layout
  | .authority r blob => r.layout ++ (match blob with | some b => leOf 48 b | Option.none => [])
  | .slot r blob => r.layout ++ (match blob with | some b => leOf 80 b | Option.none => [])
  | .opened tag d => [natByte tag.val, d.code]
  | .failedRange r => [natByte r.val]
  | .segmentCount n => leBytes 2 n
  | .ended tag reason nextIn delivered =>
    [natByte tag.val, reason.code] ++ leBytes 2 nextIn ++ leBytes 2 delivered
  | .job r => r.layout
  | .sweep r => r.layout

/-- The body of a notice: its kind and its fields (11.6). -/
def Notice.layout : Notice → List Byte
  | .started cause => [0x01, cause.code]
  | .jobAdmitted tag segments => [0x02, natByte tag.val, natByte segments]
  | .jobDone tag count elapsed => [0x03, natByte tag.val] ++ leBytes 2 count ++ leOf 4 elapsed
  | .jobEnded tag reason nextIn delivered =>
    [0x04, natByte tag.val, reason.code] ++ leBytes 2 nextIn ++ leBytes 2 delivered
  | .sweepPull number range first count =>
    [0x05] ++ leOf 2 number ++ [natByte range.val] ++ leBytes 6 first ++ [natByte count]
  | .sweepCheckpoint range oldSlot newSlot profile committed cause =>
    [0x06, natByte range.val, natByte oldSlot.val, natByte newSlot.val, natByte profile.val] ++
      leBytes 8 committed ++ [cause.code]
  | .sweepPaused range committed reason pull =>
    [0x07, natByte range.val] ++ leBytes 8 committed ++ optField 1 (fun r => [EndReason.code r]) reason ++
      optField 2 (leOf 2) pull
  | .sweepDone range active oldSlot outcome =>
    [0x08, natByte range.val] ++ optNumber active ++ [natByte oldSlot.val, outcome.code]
  | .noiseHealth state => [0x09, state.code]
  | .hold lane => [0x0A, natByte lane.val]
  | .powerState state cause => [0x0B, state.code, cause.code]
  | .linkError reason bytes => [0x0C, linkFaultCode reason] ++ leBytes 2 bytes

/-- The kind code of a frame (R174). -/
def OutFrame.kindCode : OutFrame → Byte
  | .reply .. => 0x81
  | .jobSector .. => 0x82
  | .sweepSector .. => 0x83
  | .notice .. => 0x84

/-- The body of a frame (11.4 to 11.6); `payload` is what its buffer holds, sent when the code is OK. -/
def OutFrame.bodyBytes (payload : List Byte) : OutFrame → List Byte
  | .reply kind num code body => [kind, num, code.code] ++ body.layout
  | .jobSector tag index code _ _ => [tag, index, code.code] ++ (if code = .ok then payload else [])
  | .sweepSector pull offset code _ _ =>
    leOf 2 pull ++ [offset, code.code] ++ (if code = .ok then payload else [])
  | .notice n => n.layout

/-- The buffer that a frame's sending frees (R13). -/
def OutFrame.buffer : OutFrame → Option BufRef
  | .reply .. | .notice .. => none
  | .jobSector _ _ _ b _ => b
  | .sweepSector _ _ _ b _ => b

/-- The job or pull to whose order a frame belongs (R8). -/
def OutFrame.owner : OutFrame → Option Nat
  | .reply .. | .notice .. => none
  | .jobSector _ _ _ _ o => o
  | .sweepSector _ _ _ _ o => o

/-- Whether a frame is a sector-out, a refusal or not (R15). -/
def OutFrame.isSector : OutFrame → Bool
  | .reply .. | .notice .. => false
  | .jobSector .. | .sweepSector .. => true

/-- The bytes of a frame on the link: header, body, check word (R2, R174). -/
def OutFrame.bytes (payload : List Byte) (f : OutFrame) : List Byte := envelope f.kindCode (f.bodyBytes payload)

end Sys2Proof.Machine
end

