-- ==== Sys2Proof/Machine/Flags.lean ====
section
/-! DEFINITION. What the blocks read of the state without changing it: lookups, counts, conditions, and the reports that
replies carry. -/

namespace Sys2Proof.Machine

/-! ### Power, lanes and buffers -/

/-- The part is entering DEEP (R164). -/
def State.enteringDeep (s : State) : Bool := s.deepPending.isSome

/-- The part runs: it is ACTIVE and no reset holds it, so that its tick counter advances (R156, R157, R167). -/
def State.awake (s : State) : Bool := !s.inReset && s.power == .active

def Lane.isIdle : Lane → Bool
  | .idle => true
  | .busy _ | .offline => false

def Lane.isBusy : Lane → Bool
  | .busy _ => true
  | .idle | .offline => false

/-- A lane is in service while it is IDLE or BUSY (R112). -/
def Lane.inService : Lane → Bool
  | .idle | .busy _ => true
  | .offline => false

def Lane.state : Lane → LaneState
  | .idle => .idle
  | .busy _ => .busy
  | .offline => .offline

def State.anyLaneBusy (s : State) : Bool := s.lanes.any Lane.isBusy

def State.anyLaneInService (s : State) : Bool := s.lanes.any Lane.inService

def State.laneStates (s : State) : Table LaneState 4 := s.lanes.map Lane.state

/-- What a buffer holds, if it is taken. -/
def State.buffer (s : State) : BufRef → Option Buffer
  | .job i => s.jobPool.get i
  | .sweep i => s.sweepPool.get i

/-- The payload in a buffer. -/
def State.payload (s : State) (b : Option BufRef) : List Byte :=
  match b.bind s.buffer with
  | some buf => buf.payload
  | none => []

/-- The bytes of a frame of the transmit order. -/
def State.frameBytes (s : State) (f : OutFrame) : List Byte := f.bytes (s.payload f.buffer)

/-! ### Jobs -/

/-- The job that an owner names, while it is in the table. -/
def State.jobOwning (s : State) (uid : Nat) (tag : Tag) : Option Job :=
  match s.jobs.get tag with
  | some j => if j.uid = uid then some j else none
  | none => none

def Owner.isJob (uid : Nat) : Owner → Bool
  | .job u _ _ => u == uid
  | .pull .. => false

def Owner.isPull (uid : Nat) : Owner → Bool
  | .job .. => false
  | .pull u _ _ => u == uid

def Lane.worksFor (p : Owner → Bool) : Lane → Bool
  | .busy w => p w.owner
  | .idle | .offline => false

/-- A sector of the job is in a lane (R101). -/
def State.jobInLane (s : State) (uid : Nat) : Bool := s.lanes.any (Lane.worksFor (Owner.isJob uid))

/-- A job's buffers held: the taken job buffers whose owner is that job (R9, R85). -/
def State.buffersHeld (s : State) (uid : Nat) : Nat :=
  s.jobPool.count fun b => match b with | some buf => buf.owner.isJob uid | none => false

def isSomeState (st : JobState) : Option Job → Bool
  | some j => j.state == st
  | none => false

/-- An admitted job that is still in the table: OPEN or ENDING (R107). -/
def isAdmitted : Option Job → Bool
  | some j => j.state == .opened || j.state == .ending
  | none => false

/-- The spans of the admitted jobs still in the table, as first LBA and end (R107). -/
def State.admittedSpans (s : State) : List (Nat × Nat) :=
  s.jobs.rows.filterMap fun o =>
    if isAdmitted o then o.map (fun j => (j.first, j.first + j.count)) else none

/-- Whether an LBA lies in the span of an admitted job still in the table (R107). -/
def State.inAdmittedSpan (s : State) (x : Nat) : Bool :=
  s.admittedSpans.any fun p => p.1 ≤ x && x < p.2

/-- The direction that a lock blocks: a read lock blocks DECIPHER, a write lock ENCIPHER (R41, R88). -/
def RangeRec.blocks (r : RangeRec) : Direction → Bool
  | .encipher => r.writeLock
  | .decipher => r.readLock

def Job.onRange (j : Job) (r : RangeNo) : Bool := j.segments.any fun g => g.range == r

/-- Whether some OPEN job has a segment on the range (R38, R107). -/
def State.openOnRange (s : State) (r : RangeNo) : Bool :=
  s.jobs.any fun o => match o with | some j => j.state == .opened && j.onRange r | none => false

/-- A profile is in use by jobs (R21). -/
def State.profileInUse (s : State) (p : ProfileNo) : Bool :=
  s.jobs.any fun o => match o with | some j => j.profile == p | none => false

/-- A stream is in use (R22). -/
def State.streamInUse (s : State) (st : StreamNo) : Bool :=
  s.jobs.any fun o => match o with | some j => j.stream == st | none => false

def State.jobCount (s : State) : Nat := s.jobs.count Option.isSome

/-- The segment whose indices contain an index (R86, R95). -/
def Job.segmentAt (j : Job) (index : Nat) : Option Segment :=
  j.segments.find? fun g => g.first ≤ index && index < g.first + g.count

/-- The slot recorded by the segment that contains an index. The segments of an OPEN job partition its indices (R86), so
that the last case does not arise for an index below the count. -/
def Job.slotAt (j : Job) (index : Nat) : SlotNo :=
  match j.segmentAt index with
  | some g => g.slot
  | none => 0

/-! ### Ranges -/

def RangeRec.contains (r : RangeRec) (x : Nat) : Bool :=
  match r.definition with
  | some d => d.base ≤ x && x < d.base + d.length
  | none => false

/-- The definitions of the DEFINED ranges. -/
def State.definitions (s : State) : List RangeDef := s.ranges.rows.filterMap RangeRec.definition

/-- The capacity C; while the provisioning record is absent there is none, and range 0's extent is empty (R30). -/
def State.capacity (s : State) : Nat :=
  match s.prov with
  | some p => p.capacity
  | none => 0

/-- Lookup: the DEFINED range whose extent contains the LBA, or range 0 (R31). -/
def State.lookup (s : State) (x : Nat) : RangeNo :=
  match s.ranges.lowest (fun r => r.contains x) with
  | some r => r
  | none => 0

/-- The next boundary: the least LBA above `x` at which lookup gives another range than at `x`, or C (R32). -/
def State.nextBoundary (s : State) (x : Nat) : Nat :=
  match s.definitions.find? (fun d => d.base ≤ x && x < d.base + d.length) with
  | some d => min (d.base + d.length) s.capacity
  | none => (s.definitions.filter fun d => x < d.base).foldl (fun m d => min m d.base) s.capacity

/-- The search of `State.nextGlobal`: each turn steps over one DEFINED range, and there are at most 16. -/
def stepOverRanges (defs : List RangeDef) (capacity : Nat) : Nat → Nat → Nat
  | 0, x => min x capacity
  | n + 1, x =>
    match defs.find? (fun d => d.base ≤ x && x < d.base + d.length) with
    | some d => stepOverRanges defs capacity n (d.base + d.length)
    | none => min x capacity

/-- The least LBA at or above `x` that lies in range 0's extent, or C (R32). -/
def State.nextGlobal (s : State) (x : Nat) : Nat := stepOverRanges s.definitions s.capacity 17 x

/-- The search of `State.globalEnd`, downwards from `e`. -/
def stepBelowRanges (defs : List RangeDef) : Nat → Nat → Nat
  | 0, e => e
  | n + 1, e =>
    if e = 0 then 0
    else match defs.find? (fun d => d.base ≤ e - 1 && e - 1 < d.base + d.length) with
      | some d => stepBelowRanges defs n d.base
      | none => e

/-- One more than the greatest LBA of range 0's extent, or 0 when it is empty (R128). -/
def State.globalEnd (s : State) : Nat := stepBelowRanges s.definitions 17 s.capacity

/-- The owner of a range: of a DEFINED range its own, of range 0 the provisioning record's (R29, R30). -/
def State.rangeOwner (s : State) (r : RangeNo) : Option AuthNo :=
  if r = 0 then s.prov.map Provisioning.owner else (s.ranges.get r).definition.map RangeDef.owner

/-- The range is 0, or it is DEFINED (R38, test 4, and others). -/
def State.rangeUsable (s : State) (r : RangeNo) : Bool := r == 0 || (s.ranges.get r).definition.isSome

/-- Whether the span [first, last) meets the extent of a range. -/
def State.spanMeetsRange (s : State) (first last : Nat) (r : RangeNo) : Bool :=
  if r = 0 then decide (first < last) && decide (s.nextGlobal first < last) && decide (s.nextGlobal first < s.capacity)
  else match (s.ranges.get r).definition with
    | some d => decide (first < d.base + d.length) && decide (d.base < last) && decide (first < last) &&
        decide (0 < d.length)
    | none => false

/-- A piece of a span walk (R32). -/
structure Piece where
  first : Nat
  count : Nat
  range : RangeNo
deriving DecidableEq, Repr

/-- The pieces of a span, in ascending order: maximal runs that look up to one range (R32). The first argument bounds the
number of pieces; a span has no more pieces than LBAs. -/
def State.walk (s : State) : Nat → Nat → Nat → List Piece
  | 0, _, _ => []
  | n + 1, x, count =>
    if count = 0 then []
    else
      let run := min count (s.nextBoundary x - x)
      ⟨x, run, s.lookup x⟩ :: s.walk n (x + run) (count - run)

/-- The span walk of [first, first + count) (R32). -/
def State.spanWalk (s : State) (first count : Nat) : List Piece := s.walk count first count

/-- The first piece that names an unkeyed range (R88, test 8). -/
def State.unkeyedPiece (s : State) (pieces : List Piece) : Option Piece :=
  pieces.find? fun p => (s.ranges.get p.range).active.isNone

/-- The first piece that names a range whose lock blocks the direction (R88, test 9). -/
def State.lockedPiece (s : State) (d : Direction) (pieces : List Piece) : Option Piece :=
  pieces.find? fun p => (s.ranges.get p.range).blocks d

/-- How many ranges name a slot as active slot (R65). -/
def State.activeRefs (s : State) (k : SlotNo) : Nat := s.ranges.count fun r => r.active == some k

/-- Whether a range names a slot as pending slot (R65). -/
def State.pendingRef (s : State) (k : SlotNo) : Bool := s.ranges.any fun r => r.pending == some k

/-- Whether a range names a slot (R39, R73, R75). -/
def State.slotNamed (s : State) (k : SlotNo) : Bool :=
  s.ranges.any fun r => r.active == some k || r.pending == some k

/-! ### The sweep -/

/-- The base from which a range's cursors count: range 0's cursors are absolute (R128). -/
def State.cursorBase (s : State) (r : RangeNo) : Nat :=
  if r = 0 then 0
  else match (s.ranges.get r).definition with
    | some d => d.base
    | none => 0

/-- The end of the extent, in cursor form (R128). -/
def State.extentEnd (s : State) (r : RangeNo) : Nat :=
  if r = 0 then s.globalEnd
  else match (s.ranges.get r).definition with
    | some d => d.length
    | none => 0

/-- The sweep is complete: no LBA of the extent lies at or above the committed cursor (R128). -/
def State.sweepComplete (s : State) (w : Sweep) : Bool := s.extentEnd w.range ≤ w.committed

/-- The sectors in outstanding pulls (R128). -/
def Sweep.outstanding (w : Sweep) : Nat := (w.pulls.map Pull.count).sum

/-- Whether the span [first, last) meets LBAs of the range's extent from cursor `lo` up to below cursor `hi`. -/
def State.spanMeetsCursors (s : State) (first last : Nat) (r : RangeNo) (lo hi : Nat) : Bool :=
  s.spanMeetsRange (max first (s.cursorBase r + lo)) (min last (s.cursorBase r + hi)) r

/-- Whether a job's span meets the sweep window (R89, R128). -/
def State.meetsWindow (s : State) (first count : Nat) : Bool :=
  match s.sweep with
  | some w => s.spanMeetsCursors first (first + count) w.range w.committed w.issued
  | none => false

/-- The pull with a number (R12, R138). -/
def Sweep.pullNumbered (w : Sweep) (n : Half) : Option Pull := w.pulls.find? fun p => p.number == n

/-- The pull that an owner names, while it is in the Pull List. -/
def State.pullOwning (s : State) (uid : Nat) : Option Pull :=
  match s.sweep with
  | some w => w.pulls.find? fun p => p.uid == uid
  | none => none

/-! ### Segment resolution (R90) -/

/-- The cursor as an absolute LBA, and the range it is in, while the sweep is not IDLE (R90, step 2). -/
def State.sweepCut (s : State) : Option (RangeNo × Nat) :=
  s.sweep.map fun w => (w.range, s.cursorBase w.range + w.committed)

/-- A piece cut at the cursor, each run with its key role (R90, steps 2 and 3). -/
def cutPiece (cut : Option (RangeNo × Nat)) (p : Piece) : List (Piece × KeyRole) :=
  match cut with
  | none => [(p, .active)]
  | some (r, cursor) =>
    if p.range ≠ r then [(p, .active)]
    else if cursor ≤ p.first then [(p, .active)]
    else if p.first + p.count ≤ cursor then [(p, .pending)]
    else
      [(⟨p.first, cursor - p.first, p.range⟩, .pending),
       (⟨cursor, p.first + p.count - cursor, p.range⟩, .active)]

/-- The slot that a run records: the range's pending slot under role PENDING, else its active slot (R90, step 3). The tests
before admission have found the slot present (R88, test 8; R46), so that the last case does not arise in an admission. -/
def State.roleSlot (s : State) (r : RangeNo) (role : KeyRole) : SlotNo :=
  match role, (s.ranges.get r).active, (s.ranges.get r).pending with
  | .active, some k, _ => k
  | .pending, _, some k => k
  | _, _, _ => 0

/-- The segments of a span (R90). -/
def State.resolve (s : State) (first count : Nat) : List Segment :=
  ((s.spanWalk first count).flatMap (cutPiece s.sweepCut)).map fun (p, role) =>
    ⟨p.first - first, p.count, p.range, s.roleSlot p.range role, role⟩

/-! ### Reports -/

/-- The two job counts of the range report (R34). -/
def State.openJobsOn (s : State) (r : RangeNo) : Nat :=
  s.jobs.count fun o => match o with | some j => j.state == .opened && j.onRange r | none => false

def State.waitingJobsOn (s : State) (r : RangeNo) : Nat :=
  s.jobs.count fun o => match o with
    | some j => j.state == .waiting && s.spanMeetsRange j.first (j.first + j.count) r
    | none => false

/-- The extent size of range 0 (R30). -/
def State.globalSize (s : State) : Nat := s.capacity - (s.definitions.map RangeDef.length).sum

/-- The range report (R34). -/
def State.rangeReport (s : State) (r : RangeNo) : RangeReport :=
  let rec_ := s.ranges.get r
  { range := r
    state := if r = 0 then .global else if rec_.definition.isSome then .defined else .undefined
    base := if r = 0 then none else rec_.definition.map RangeDef.base
    extent := if r = 0 then some s.globalSize else rec_.definition.map RangeDef.length
    owner := s.rangeOwner r
    lorRead := if r = 0 then s.prov.map Provisioning.lorRead else rec_.definition.map RangeDef.lorRead
    lorWrite := if r = 0 then s.prov.map Provisioning.lorWrite else rec_.definition.map RangeDef.lorWrite
    readLock := rec_.readLock
    writeLock := rec_.writeLock
    active := rec_.active
    pending := rec_.pending
    openJobs := s.openJobsOn r
    waitingJobs := s.waitingJobsOn r }

/-- The authority report (R51). -/
def State.authorityReport (s : State) (a : AuthNo) : AuthorityReport :=
  let r := s.auths.get a
  { auth := a, state := r.state, op := r.op, verifierHeld := r.blob.isSome, failures := r.failures }

def DrainCause.kind : DrainCause → DrainKind
  | .purge _ => .purge
  | .retire => .retire

/-- The slot report (R65). -/
def State.slotReport (s : State) (k : SlotNo) : SlotReport :=
  let r := s.slots.get k
  { slot := k, state := r.state, auth := r.auth, laneCount := r.laneCount, activeRefs := s.activeRefs k,
    pendingRef := s.pendingRef k, drain := r.drain.map DrainCause.kind, queueEntries := s.workQueue.length,
    wrapBusy := s.running.isSome, noise := s.noise }

/-- A job's place in the waiting list, from 1 (R105). -/
def placeFrom (tag : Tag) : List Tag → Nat → Option Nat
  | [], _ => none
  | t :: rest, n => if t = tag then some n else placeFrom tag rest (n + 1)

/-- The job report (R105). -/
def State.jobReport (s : State) (tag : Tag) : JobReport :=
  { tag := tag
    view := (s.jobs.get tag).map fun j =>
      { state := j.state, stream := j.stream, profile := j.profile, cls := j.cls, direction := j.direction,
        first := j.first, count := j.count, segments := j.segments, nextIn := j.nextIn, nextOut := j.nextOut,
        buffersHeld := s.buffersHeld j.uid
        reorderEntries := if j.state = .waiting then none else some j.reorder.length
        age := if j.state = .opened then some j.age else none
        openTick := j.openTick
        reason := j.reason
        position := if j.state = .waiting then placeFrom tag s.waiting 1 else none } }

/-- The sweep report (R130). -/
def State.sweepReport (s : State) : SweepReport :=
  { view := s.sweep.map fun w =>
      { state := w.state, range := w.range, oldSlot := w.oldSlot, newSlot := w.newSlot, profile := w.profile,
        cls := w.cls, limit := w.limit, committed := w.committed, issued := w.issued, pulls := w.pulls.length,
        sectors := w.outstanding, blocked := w.blocked }
    nextPull := s.nextPull }

/-- The operations in the Key Work Queue, counting the wrap unit (R67, R166). -/
def State.workOps (s : State) : Nat := s.workQueue.length + (if s.running.isSome then 1 else 0)

/-- The status body (R166). -/
def State.statusBody (s : State) : StatusBody :=
  { cause := s.cause, power := s.power, hold := s.hold, lanes := s.laneStates, ticks := s.ticks,
    interval := s.interval, prov := s.prov, noise := s.noise, workOps := s.workOps, jobs := s.jobCount,
    auths := Table.ofFn s.authorityReport, sweep := s.sweepReport }

/-- The body of a RELEASE-HOLD reply (R173). -/
def State.holdBody (s : State) : ReplyBody := .hold s.hold s.laneStates

/-! ### Authorities and carries -/

/-- What a block that requires an authority gives when the authority is BARRED or otherwise not OPEN (R33, R52). -/
def State.authorityRefusal (s : State) (a : AuthNo) : Option ReplyCode :=
  match (s.auths.get a).state with
  | .barred => some .barred
  | .opened => none
  | .notEnrolled | .sealed | .checking => some .notAuthorised

/-- The counter value that an advance reaches is a multiple of 2^bit: a carry of that bit (R158). -/
def isCarry (bit : Nat) (t : Ticks) : Bool := t.toNat % 2 ^ bit == 0

/-- The bit that the interval index selects (R159). -/
def selectedBit (i : Fin 4) : Nat := 14 + 2 * i.val

/-- The users of a carry in the order in which they take it. -/
def carryUsers : CarryOrder → List CarryUser
  | .jobsPullsNoise => [.jobs, .pulls, .noise]
  | .jobsNoisePulls => [.jobs, .noise, .pulls]
  | .pullsJobsNoise => [.pulls, .jobs, .noise]
  | .pullsNoiseJobs => [.pulls, .noise, .jobs]
  | .noiseJobsPulls => [.noise, .jobs, .pulls]
  | .noisePullsJobs => [.noise, .pulls, .jobs]

end Sys2Proof.Machine
end

