-- ==== Sys2Proof/Machine/Ops.lean ====
section
/-! DEFINITION. The shared operations: frames in and out, the buffer pool, the Lane Queue and the lane counts, the ending
and admission of jobs, the wrap unit's endings, the noise source's health. An operation that produces frames gives them
beside the new state, in the order in which they join the transmit order. -/

namespace Sys2Proof.Machine

/-- A new state, and the frames that join the transmit order. -/
abbrev Effect := State × List OutFrame

/-- What a command answers. -/
abbrev Result := Host.Outcome State Fault Refusal

/-- One effect, then another on the state it leaves; the frames in that order. -/
def thenDo (e : Effect) (f : State → Effect) : Effect :=
  let r := f e.1
  (r.1, e.2 ++ r.2)

/-- An effect for each member of a list, in the list's order. -/
def forEach {α : Type} (l : List α) (f : α → State → Effect) (s : State) : Effect :=
  match l with
  | [] => (s, [])
  | a :: rest => thenDo (f a s) (forEach rest f)

/-- Frames join the tail of the transmit order (R7). -/
def State.emit (s : State) (frames : List OutFrame) : State := { s with order := s.order ++ frames }

/-- The event is over: its frames have joined the transmit order. -/
def conclude (e : Effect) : Result := .next (e.1.emit e.2)

/-- An event of the part itself. While a power-on or line reset holds the part there is none (R167). -/
def onEvent (s : State) (f : State → Effect) : Result :=
  if s.inReset then .next s else conclude (f s)

/-- The wake: in DOZE or DEEP the part becomes ACTIVE and the noise source WARMING with count 0 (R170). -/
def State.wake (s : State) : State :=
  match s.power with
  | .active => s
  | .doze | .deep => { s with power := .active, noise := .warming, warmCount := 0 }

/-- The end of a received frame: it wakes the part (R4), and the receiver holds nothing of it any more. -/
def State.frameEnded (s : State) : State := { s.wake with receiving := [] }

/-- The end of a received frame, and what it does after the wake. While a reset holds the part, no frame is received
(R14). -/
def onFrame (s : State) (f : State → Effect) : Result :=
  if s.inReset then .next s else conclude (f s.frameEnded)

/-- The reply to a request of a defined kind. -/
def replyTo (r : Request) (num : Byte) (code : ReplyCode) (body : ReplyBody) : OutFrame := .reply r.code num code body

/-- A request answered at once, with nothing else done. -/
def answer (s : State) (r : Request) (num : Byte) (code : ReplyCode) (body : ReplyBody) : Effect :=
  (s, [replyTo r num code body])

/-- A request accepted with the effect `e`: its reply stands before the event's other frames and its report gives the state
after the event (R34, R130, R140). -/
def replyFirst (e : Effect) (reply : State → OutFrame) : Effect := (e.1, reply e.1 :: e.2)

/-- A request of a defined kind that is taken: with another body length than its kind's it is refused BAD-FIELD and has no
other effect (R5). -/
def onRequest (r : Request) (num : Byte) (len : Nat) (s : State) (f : State → Effect) : Result :=
  onFrame s fun s => if len ≠ r.bodyLength then answer s r num .badField .none else f s

/-- The test that begins every request but RESET, DEEP aside: the part is not entering DEEP (R33, R51 and others). -/
def unlessEnteringDeep (r : Request) (num : Byte) (s : State) (f : Effect) : Effect :=
  if s.enteringDeep then answer s r num .power .none else f

/-- The first two tests of the profile, stream, range, job and sweep requests (R17, R33, R88): the provisioning record is
handed on. -/
def whenProvisioned (r : Request) (num : Byte) (s : State) (f : Provisioning → Effect) : Effect :=
  unlessEnteringDeep r num s
    (match s.prov with
      | none => answer s r num .notProvisioned .none
      | some p => f p)

/-! ### Buffers and the transmit order (R8, R13) -/

def State.setBuffer (s : State) (b : BufRef) (v : Option Buffer) : State :=
  match b with
  | .job i => { s with jobPool := s.jobPool.set i v }
  | .sweep i => { s with sweepPool := s.sweepPool.set i v }

def State.freeBuffer (s : State) (b : BufRef) : State := s.setBuffer b none

def State.freeBuffers (s : State) (l : List BufRef) : State := l.foldl State.freeBuffer s

/-- A free job buffer; which one has no effect that the controller can see (R9). -/
def State.freeJobBuffer (s : State) : Option BufRef := (s.jobPool.lowest Option.isNone).map .job

/-- A free sweep buffer (R9). -/
def State.freeSweepBuffer (s : State) : Option BufRef := (s.sweepPool.lowest Option.isNone).map .sweep

/-- Only the buffers for which `keep` holds stay taken. -/
def State.keepBuffers (s : State) (keep : BufRef → Buffer → Bool) : State :=
  { s with
    jobPool := Table.ofFn fun i => (s.jobPool.get i).filter (keep (.job i))
    sweepPool := Table.ofFn fun i => (s.sweepPool.get i).filter (keep (.sweep i)) }

/-- The frame being sent, which no event withdraws (R8). -/
def State.begun (s : State) : Option OutFrame :=
  match s.sending with
  | some _ => s.order.head?
  | none => none

/-- The frames of the transmit order that have not begun to be sent. -/
def State.waitingFrames (s : State) : List OutFrame :=
  match s.sending with
  | some _ => s.order.drop 1
  | none => s.order

/-- The frames that a withdrawal takes. -/
def State.withdrawn (s : State) (p : OutFrame → Bool) : List OutFrame := s.waitingFrames.filter p

/-- Frames that wait and have not begun are withdrawn, and their buffers freed (R8). -/
def State.withdraw (s : State) (p : OutFrame → Bool) : State :=
  let kept := s.begun.toList ++ s.waitingFrames.filter fun f => !p f
  { s with order := kept }.freeBuffers ((s.withdrawn p).filterMap OutFrame.buffer)

/-- A sector-out of a job's own order (R8). -/
def OutFrame.ofJob (uid : Nat) : OutFrame → Bool
  | .jobSector _ _ _ _ (some u) => u == uid
  | _ => false

/-- A sector-out of a pull's own order (R8). -/
def OutFrame.ofPull (uid : Nat) : OutFrame → Bool
  | .sweepSector _ _ _ _ (some u) => u == uid
  | _ => false

/-! ### The Lane Queue and the lane counts (R66, R110) -/

def LaneOp.slots : LaneOp → List SlotNo
  | .encipher k | .decipher k => [k]
  | .recipher old new => [old, new]

def State.raiseCount (s : State) (k : SlotNo) : State :=
  { s with slots := s.slots.update k fun r => { r with laneCount := r.laneCount + 1 } }

def State.lowerCount (s : State) (k : SlotNo) : State :=
  { s with slots := s.slots.update k fun r => { r with laneCount := r.laneCount - 1 } }

def State.raiseCounts (s : State) (l : List SlotNo) : State := l.foldl State.raiseCount s

def State.lowerCounts (s : State) (l : List SlotNo) : State := l.foldl State.lowerCount s

/-- An accepted sector takes a buffer and joins the Lane Queue; its slots' lane counts rise (R10, R12, R66, R110). -/
def State.enqueue (s : State) (b : BufRef) (owner : Owner) (payload : List Byte) (lba : Nat) (op : LaneOp) (cls : ClassNo)
    (format : Format) : State :=
  let entry : QueueEntry :=
    { owner := owner, buffer := b, lba := lba, op := op, cls := cls, format := format, arrival := s.nextArrival }
  { (s.setBuffer b (some ⟨owner, .awaiting, payload⟩)).raiseCounts op.slots with
    laneQueue := s.laneQueue ++ [entry], nextArrival := s.nextArrival + 1 }

/-- The waiting sectors of some owners are discarded: buffers freed, lane counts lowered (R13). -/
def State.discardQueued (s : State) (p : Owner → Bool) : State :=
  let gone := s.laneQueue.filter fun e => p e.owner
  let s1 := { s with laneQueue := s.laneQueue.filter fun e => !p e.owner }
  (s1.freeBuffers (gone.map QueueEntry.buffer)).lowerCounts (gone.flatMap fun e => e.op.slots)

/-- Sectors in lanes are no longer counted against some slots (R66, R84). -/
def State.detach (s : State) (p : SlotNo → Bool) : State :=
  { s with
    lanes := s.lanes.map fun l => match l with
      | .busy w => .busy { w with counted := w.counted.filter fun k => !p k }
      | .idle => .idle
      | .offline => .offline }

/-! ### Drains (R74) -/

/-- A drain completes: the slot becomes EMPTY; a PURGE-KEY owed a reply is answered OK (R74). -/
def State.completeDrain (k : SlotNo) (s : State) : Effect :=
  let s1 := { s with slots := s.slots.set k KeySlot.initial }
  match (s.slots.get k).drain with
  | some (.purge num) => (s1, [replyTo .purgeKey num .ok (.slot (s1.slotReport k) none)])
  | some .retire | none => (s1, [])

def KeySlot.drained (r : KeySlot) : Bool := r.state == .draining && r.laneCount == 0

/-- Every DRAINING slot whose lane count has fallen to 0 completes its drain (R74). Where one event ends several drains, they
complete in ascending slot order: DESIGN CHOICE, since R74 ranks no two of them (log entry 26). -/
def State.settleDrains (s : State) : Effect := forEach (s.slots.numbers KeySlot.drained) State.completeDrain s

/-! ### The ending of jobs (R100, R101) -/

/-- A job in WAITING or OPEN enters ENDING (R100). -/
def State.endJob (s : State) (tag : Tag) (reason : EndReason) (owed : Option Byte) : State :=
  match s.jobs.get tag with
  | none => s
  | some j =>
    if j.state = .ending then s
    else
      let w := (s.withdrawn (OutFrame.ofJob j.uid)).length
      let s1 := ((s.withdraw (OutFrame.ofJob j.uid)).freeBuffers (j.reorder.map JobFinished.buffer)).discardQueued
        (Owner.isJob j.uid)
      let ended := { j with state := .ending, nextOut := j.nextOut - w, reorder := [], age := 0,
                            reason := some reason, owed := owed }
      { s1 with jobs := s1.jobs.set tag (some ended), waiting := s1.waiting.filter fun t => t ≠ tag }

def State.endJobs (s : State) (tags : List Tag) (reason : EndReason) : State :=
  tags.foldl (fun s t => s.endJob t reason none) s

/-- The end reason of a job in ENDING. -/
def Job.endReason (j : Job) : EndReason :=
  match j.reason with
  | some r => r
  | none => .cancelled

/-- The frame of a job that leaves from ENDING (R101). -/
def Job.leaveFrame (j : Job) (tag : Tag) : OutFrame :=
  match j.owed with
  | some num => replyTo .endJob num .ok (.ended tag j.endReason j.nextIn j.nextOut)
  | none => .notice (.jobEnded tag j.endReason j.nextIn j.nextOut)

/-- A job in ENDING leaves the table when no sector of it is in a lane (R101). -/
def State.leaveIfClear (tag : Tag) (s : State) : Effect :=
  match s.jobs.get tag with
  | none => (s, [])
  | some j =>
    if j.state = .ending ∧ s.jobInLane j.uid = false then
      ({ s with jobs := s.jobs.set tag none }, [j.leaveFrame tag])
    else (s, [])

/-- The jobs that leave in one event, in ascending tag order (R101). -/
def State.leaveAll (s : State) : Effect := forEach (List.finRange 32) State.leaveIfClear s

/-- Whether some job has left the table between two states (R107). -/
def jobLeft (before after : State) : Bool :=
  (List.finRange 32).any fun t => (before.jobs.get t).isSome && (after.jobs.get t).isNone

/-! ### Waiting jobs (R93, R94) -/

/-- A job is admitted: it becomes OPEN with its segments (R89, R94). -/
def Job.admitted (j : Job) (segments : List Segment) (now : Ticks) : Job :=
  { j with state := .opened, segments := segments, age := 0, openTick := some now }

/-- The re-check of one WAITING job (R94). -/
def State.recheck (tag : Tag) (s : State) : Effect :=
  match s.jobs.get tag with
  | none => (s, [])
  | some j =>
    if j.state ≠ .waiting ∨ s.meetsWindow j.first j.count = true then (s, [])
    else
      let off := { s with waiting := s.waiting.filter fun t => t ≠ tag }
      let removed := fun reason : EndReason =>
        (({ off with jobs := off.jobs.set tag none } : State), [OutFrame.notice (.jobEnded tag reason 0 0)])
      let pieces := s.spanWalk j.first j.count
      let segments := s.resolve j.first j.count
      if (s.unkeyedPiece pieces).isSome then removed .noKey
      else if (s.lockedPiece j.direction pieces).isSome then removed .locked
      else if segments.length > 4 then removed .splitLimit
      else
        ({ off with jobs := off.jobs.set tag (some (j.admitted segments s.ticks)) },
          [.notice (.jobAdmitted tag segments.length)])

/-- The re-evaluation of the waiting list, which the hold suspends (R93, R150). -/
def State.reevaluate (s : State) : Effect :=
  if s.hold then (s, []) else forEach s.waiting State.recheck s

/-! ### The noise source's health (R79 to R81) -/

/-- The slot of a filling operation that ends without a key becomes EMPTY (R70, R72). -/
def State.emptySlot (s : State) (k : SlotNo) : State := { s with slots := s.slots.set k KeySlot.initial }

/-- A creation that fails returns its authority to NOT-ENROLLED; the failure counter is kept (R55). -/
def State.creationFails (s : State) (a : AuthNo) : State :=
  { s with auths := s.auths.update a fun r => Authority.initial r.failures }

/-- Whether an operation draws from the noise source. -/
def WorkOp.draws : WorkOp → Bool
  | .generation .. | .creation .. => true
  | .unwrap .. | .check .. | .rewrap .. => false

/-- The request that an operation of the wrap unit came from (R67). -/
def WorkOp.request : WorkOp → Request
  | .unwrap .. => .loadKey
  | .generation .. => .generateKey
  | .check .. => .unlockAuthority
  | .creation .. => .createAuthority
  | .rewrap .. => .setCredential

/-- The body of a deferred reply without a blob: the slot report for an unwrap or a generation, the authority report for the
other kinds (R65, R51, R83). -/
def WorkOp.body (s : State) : WorkOp → ReplyBody
  | .unwrap _ k _ | .generation _ k => .slot (s.slotReport k) none
  | .check a _ | .creation a _ | .rewrap a _ => .authority (s.authorityReport a) none

/-- The deferred reply of an operation. -/
def WorkItem.reply (i : WorkItem) (code : ReplyCode) (s : State) : OutFrame :=
  replyTo i.op.request i.num code (i.op.body s)

/-- What an operation's ending without success does to its slot or authority: the slot of an unwrap or a generation becomes
EMPTY, the authority of a creation NOT-ENROLLED, and a check or a rewrap changes nothing here (R55, R59, R70, R72). -/
def State.workFails (s : State) : WorkOp → State
  | .unwrap _ k _ | .generation _ k => s.emptySlot k
  | .creation a _ => s.creationFails a
  | .check .. | .rewrap .. => s

/-- The noise-lost mark of every waiting generation and creation is set (R81). -/
def WorkItem.markLost (i : WorkItem) : WorkItem := if i.op.draws then { i with noiseLost := true } else i

/-- The source leaves HEALTHY for another state: marks set, NOISE-HEALTH raised, then a running generation or creation ended
NOISE-LOST (R81). -/
def State.leaveHealthy (s : State) (health : NoiseState) : Effect :=
  let s1 := { s with noise := health, warmCount := 0, workQueue := s.workQueue.map WorkItem.markLost }
  let notice := OutFrame.notice (.noiseHealth health)
  match s.running with
  | some r =>
    if r.item.op.draws then
      let s2 := { s1 with running := none }.workFails r.item.op
      (s2, [notice, r.item.reply .noiseLost s2])
    else (s1, [notice])
  | none => (s1, [notice])

/-- The source goes to STOPPED or DEGRADED from any state (R78, R79). -/
def State.noiseTo (s : State) (health : NoiseState) : Effect :=
  if s.noise = .healthy then s.leaveHealthy health else ({ s with noise := health, warmCount := 0 }, [])

/-! ### The wrap's guarantees (R50) -/

/-- The verifier blobs that this part has made, newest first: since the model began, and before, these at most 2^64 (log
entry 3). -/
def State.madeVerifiers (s : State) : List MadeVerifier :=
  s.verifierLog ++ (Config.earlierVerifiers Config.deviceSecret).take (2 ^ 64)

/-- The key blobs that this part has made, in the same way (log entry 3). -/
def State.madeKeys (s : State) : List MadeKey :=
  s.keyLog ++ (Config.earlierKeys Config.deviceSecret).take (2 ^ 64)

/-- Opening a verifier blob under an authority and a credential: the authority key of a good check, or none. The check is
good when the blob is one that this part has made, unaltered, and authority and credential are those it was made under
(R50). -/
def State.openVerifier (s : State) (a : AuthNo) (c : Credential) (b : VerifierBlob) : Option AuthKey :=
  match s.madeVerifiers.find? fun m => m.blob == b with
  | some m => if m.auth = a ∧ m.cred = c then some m.key else none
  | none => none

/-- Opening a key blob under an authority and its key, in the same way (R50). -/
def State.openKeyBlob (s : State) (a : AuthNo) (k : AuthKey) (b : KeyBlob) : Option KeyMaterial :=
  match s.madeKeys.find? fun m => m.blob == b with
  | some m => if m.auth = a ∧ m.authKey = k then some m.key else none
  | none => none

/-- The first value from `x` on, among `turns` and the one behind them, that is not among `used`. In as many turns as there
are values used it finds one that is not, where fewer are used than the width has (log entry 3). -/
def firstUnused {w : Nat} (used : List (BitVec w)) : (turns : Nat) → (x : BitVec w) → BitVec w
  | 0, x => x
  | n + 1, x => if used.contains x then firstUnused used n (x + 1) else x

/-- A value near `x` that is not among `used`. -/
def unusedFrom {w : Nat} (used : List (BitVec w)) (x : BitVec w) : BitVec w := firstUnused used used.length x

/-- The verifier blob made now of an authority key: a free value, and no blob that this part has made (R50, R55, R59). -/
def State.newVerifier (s : State) (a : AuthNo) (c : Credential) (k : AuthKey) : VerifierBlob :=
  unusedFrom (s.madeVerifiers.map MadeVerifier.blob)
    (Config.wrapVerifier Config.deviceSecret a c k s.verifierLog.length)

/-- The key blob made now of key material, in the same way (R50, R72). -/
def State.newKeyBlob (s : State) (a : AuthNo) (k : AuthKey) (m : KeyMaterial) : KeyBlob :=
  unusedFrom (s.madeKeys.map MadeKey.blob) (Config.wrapKey Config.deviceSecret a k m s.keyLog.length)

/-- The authority keys that this part's blobs were made of or under. -/
def State.usedAuthKeys (s : State) : List AuthKey :=
  s.madeVerifiers.map MadeVerifier.key ++ s.madeKeys.map MadeKey.authKey

/-- The authority key that a creation draws now: a free value, and none that an earlier blob was made of or under, so that
key blobs made under an earlier authority key do not open under it (R50, R55). -/
def State.drawnAuthKey (s : State) : AuthKey := unusedFrom s.usedAuthKeys (Config.noiseAuthKey s.draws)

/-! ### Endings of the wrap unit's work (R61, R63, R83, R84) -/

/-- A bad credential check: the counter rises, and at 5 the authority is BARRED and holds nothing (R57). -/
def Authority.badCheck (r : Authority) : Authority :=
  if r.failures + 1 < 5 then { r with state := .sealed, key := none, op := none, failures := r.failures + 1 }
  else { state := .barred, blob := none, key := none, op := none, failures := 5 }

/-- An authority in CHECKING whose operation is cut off: a check counts as a bad check, a creation returns to NOT-ENROLLED
(R61, R63). -/
def Authority.cutOff (r : Authority) : Authority :=
  match r.state, r.op with
  | .checking, some .check => r.badCheck
  | .checking, some .create => Authority.initial r.failures
  | _, _ => r

/-- An OPEN authority is sealed: its key erased, its verifier blob kept (R58, R61, R63). -/
def Authority.sealedNow (r : Authority) : Authority :=
  match r.state with
  | .opened => { r with state := .sealed, key := none }
  | .notEnrolled | .sealed | .checking | .barred => r

/-- A reply that the Key Store owes when a reset or a power event ends its work (R83). -/
inductive Owed where
  | work (item : WorkItem)
  | purge (num : Byte) (slot : SlotNo)
deriving DecidableEq, Repr

/-- The purges owed a reply, in ascending slot order. -/
def State.owedPurges (s : State) : List Owed :=
  (List.finRange 20).filterMap fun k =>
    match (s.slots.get k).state, (s.slots.get k).drain with
    | .draining, some (.purge num) => some (.purge num k)
    | _, _ => none

/-- The replies owed, in the order of R83: the running operation, the waiting ones oldest first, then the purges. -/
def State.owedReplies (s : State) : List Owed :=
  (s.running.toList.map fun r => Owed.work r.item) ++ s.workQueue.map Owed.work ++ s.owedPurges

/-- The frame of an owed reply, its report taken after the event: `code` for an operation, OK for a purge (R83). -/
def Owed.frame (code : ReplyCode) (s : State) : Owed → OutFrame
  | .work item => item.reply code s
  | .purge num k => replyTo .purgeKey num .ok (.slot (s.slotReport k) none)

/-- Every queued and running operation ends; slots being filled or drained become EMPTY, the latter with their lane sectors
detached; checks and creations are cut off (R63, R84). -/
def State.endKeyWork (s : State) : State :=
  let drains := fun k : SlotNo => (s.slots.get k).state == .draining
  { s.detach drains with
    workQueue := []
    running := none
    auths := s.auths.map Authority.cutOff
    slots := s.slots.map fun r => match r.state with
      | .unwrapping | .generating | .draining => KeySlot.initial
      | .empty | .ready => r }

/-- Every slot becomes EMPTY with lane count 0, and the sectors in lanes are detached (R66, R83, R84). -/
def State.emptyAllSlots (s : State) : State :=
  { s.detach (fun _ => true) with slots := Table.replicate 20 KeySlot.initial }

/-! ### The relock (R47) -/

/-- A range's record after a relock: its locks take its lock-on-reset flags and its slots become none. An UNDEFINED range
does not change; range 0 without a provisioning record keeps its locks. -/
def State.relocked (s : State) (r : RangeNo) : RangeRec :=
  let x := s.ranges.get r
  if r = 0 then
    match s.prov with
    | some p => { x with readLock := p.lorRead, writeLock := p.lorWrite, active := none, pending := none }
    | none => { x with active := none, pending := none }
  else
    match x.definition with
    | some d => { x with readLock := d.lorRead, writeLock := d.lorWrite, active := none, pending := none }
    | none => x

def State.relock (s : State) : State := { s with ranges := Table.ofFn s.relocked }

end Sys2Proof.Machine
end

