-- ==== Sys2Proof/Machine/AuthorityRequests.lean ====
section
/-! DEFINITION. The requests of the Authority Block (spec/04). -/

namespace Sys2Proof.Machine

/-- The reply to an authority request with the authority report (R51). -/
def answerAuthority (s : State) (q : Request) (num : Byte) (code : ReplyCode) (a : AuthNo) : Effect :=
  answer s q num code (.authority (s.authorityReport a) none)

/-- The three tests with which every authority request begins (R51). -/
def whenAuthority (q : Request) (num : Byte) (auth : Byte) (s : State) (f : AuthNo → Effect) : Effect :=
  unlessEnteringDeep q num s
    (match numberBelow 4 auth with
      | none => answer s q num .badField .none
      | some a => if (s.auths.get a).state = .barred then answerAuthority s q num .barred a else f a)

/-- The Key Work Queue has a free entry (R67). -/
def State.workRoom (s : State) : Bool := decide (s.workQueue.length < 4)

/-- An operation joins the tail of the Key Work Queue (R67). -/
def State.queueWork (s : State) (op : WorkOp) (num : Byte) : State :=
  { s with workQueue := s.workQueue ++ [⟨op, num, false⟩] }

/-- An authority in CHECKING (R54, R56). -/
def State.checking (s : State) (a : AuthNo) (op : AuthOp) : State :=
  { s with auths := s.auths.update a fun r => { r with state := .checking, op := some op } }

/-- ENROL (R53). -/
def execEnrol (num : Byte) (len : Nat) (auth : Byte) (blob : VerifierBlob) (s : State) : Result :=
  onRequest .enrol num len s fun s =>
    whenAuthority .enrol num auth s fun a =>
      match (s.auths.get a).state with
      | .notEnrolled | .sealed =>
        answerAuthority { s with auths := s.auths.update a fun r => { r with state := .sealed, blob := some blob } }
          .enrol num .ok a
      | .checking | .opened | .barred => answerAuthority s .enrol num .busy a

/-- CREATE-AUTHORITY (R54). -/
def execCreateAuthority (num : Byte) (len : Nat) (auth : Byte) (cred : Credential) (s : State) : Result :=
  onRequest .createAuthority num len s fun s =>
    whenAuthority .createAuthority num auth s fun a =>
      if (s.auths.get a).state = .checking then answerAuthority s .createAuthority num .busy a
      else if (s.auths.get a).state ≠ .notEnrolled then answerAuthority s .createAuthority num .alreadySet a
      else if s.noise ≠ .healthy then answerAuthority s .createAuthority num .noiseNotReady a
      else if s.workRoom = false then answerAuthority s .createAuthority num .busy a
      else ((s.checking a .create).queueWork (.creation a cred) num, [])

/-- UNLOCK-AUTHORITY (R56). -/
def execUnlockAuthority (num : Byte) (len : Nat) (auth : Byte) (cred : Credential) (s : State) : Result :=
  onRequest .unlockAuthority num len s fun s =>
    whenAuthority .unlockAuthority num auth s fun a =>
      match (s.auths.get a).state with
      | .notEnrolled => answerAuthority s .unlockAuthority num .notAuthorised a
      | .checking => answerAuthority s .unlockAuthority num .busy a
      | .opened => answerAuthority s .unlockAuthority num .ok a
      | .sealed | .barred =>
        if s.workRoom then ((s.checking a .check).queueWork (.check a cred) num, [])
        else answerAuthority s .unlockAuthority num .busy a

/-- SEAL-AUTHORITY (R58). -/
def execSealAuthority (num : Byte) (len : Nat) (auth : Byte) (s : State) : Result :=
  onRequest .sealAuthority num len s fun s =>
    whenAuthority .sealAuthority num auth s fun a =>
      if (s.auths.get a).state = .checking then answerAuthority s .sealAuthority num .busy a
      else answerAuthority { s with auths := s.auths.update a Authority.sealedNow } .sealAuthority num .ok a

/-- SET-CREDENTIAL (R59). -/
def execSetCredential (num : Byte) (len : Nat) (auth : Byte) (cred : Credential) (s : State) : Result :=
  onRequest .setCredential num len s fun s =>
    whenAuthority .setCredential num auth s fun a =>
      if (s.auths.get a).state = .checking then answerAuthority s .setCredential num .busy a
      else if (s.auths.get a).state ≠ .opened then answerAuthority s .setCredential num .notAuthorised a
      else if s.workRoom = false then answerAuthority s .setCredential num .busy a
      else (s.queueWork (.rewrap a cred) num, [])

end Sys2Proof.Machine
end

