-- ==== Sys2Proof/Machine/SweepOps.lean ====
section
/-! DEFINITION. The shared operations of the Sweep Engine and of events that reach it: dropping pulls, the collapse, the
issue step, the finish, checkpoints, hand-over (spec/08). -/

namespace Sys2Proof.Machine

/-! ### Dropping pulls, pausing, the collapse (R143, R144, R154) -/

/-- The sweep record changed by `f`, where the sweep is not IDLE. -/
def State.mapSweep (s : State) (f : Sweep → Sweep) : State := { s with sweep := s.sweep.map f }

/-- A frame of the order of one of some pulls. -/
def OutFrame.ofPulls (pulls : List Pull) (f : OutFrame) : Bool := pulls.any fun p => OutFrame.ofPull p.uid f

/-- A sector of one of some pulls. -/
def Owner.isPulls (pulls : List Pull) (o : Owner) : Bool := pulls.any fun p => o.isPull p.uid

/-- Every pull leaves the list without being committed, its sectors being treated as R13 gives, and the issued cursor takes
the value of the committed cursor (R144, R154). The blocked field becomes no; at a DEEP request this is a DESIGN CHOICE, since
R130 names only the collapse (log entry 27). -/
def State.dropPulls (s : State) : State :=
  match s.sweep with
  | none => s
  | some w =>
    (((s.withdraw (OutFrame.ofPulls w.pulls)).freeBuffers
        (w.pulls.flatMap fun p => p.reorder.filterMap PullFinished.buffer)).discardQueued
        (Owner.isPulls w.pulls)).mapSweep
      fun x => { x with pulls := [], issued := x.committed, blocked := false }

/-- The SWEEP-PAUSED notice of a sweep (R142 to R144). -/
def Sweep.pausedNotice (w : Sweep) (reason : Option EndReason) (pull : Option Half) : OutFrame :=
  .notice (.sweepPaused w.range w.committed reason pull)

/-- The collapse of the sweep (R144); the hold suspends its re-evaluation. -/
def State.collapse (reason : EndReason) (pull : Option Half) (s : State) : Effect :=
  match s.sweep with
  | none => (s, [])
  | some w =>
    thenDo (s.dropPulls.mapSweep fun x => { x with state := .paused }, [w.pausedNotice (some reason) pull])
      State.reevaluate

/-- A sweep in PAUSING becomes PAUSED when its Pull List is empty (R143). -/
def State.pauseIfEmpty (s : State) : Effect :=
  match s.sweep with
  | none => (s, [])
  | some w =>
    if w.state = .pausing ∧ w.pulls = [] then
      (s.mapSweep fun x => { x with state := .paused }, [w.pausedNotice none none])
    else (s, [])

/-! ### The issue step (R133, R134) -/

/-- The first LBA of the extent at or above the issued cursor (R134, step 1). -/
def State.nextToIssue (s : State) (w : Sweep) : Option Nat :=
  if w.range = 0 then
    if s.nextGlobal w.issued < s.capacity then some (s.nextGlobal w.issued) else none
  else if w.issued < s.extentEnd w.range then some (s.cursorBase w.range + w.issued) else none

/-- The end of the run that begins at `x` (R134, step 3). -/
def State.runEnd (s : State) (w : Sweep) (x : Nat) : Nat :=
  ((s.admittedSpans.map Prod.fst).filter fun a => x < a).foldl min
    (min (min (x + 8) (x + (w.limit - w.outstanding))) (s.nextBoundary x))

/-- A pull as it is issued (R134, step 4). -/
def Pull.issue (uid : Nat) (number : Half) (first count : Nat) : Pull :=
  { uid := uid, number := number, first := first, count := count, received := 0, handedOver := 0, sent := 0,
    reorder := [], committed := false, age := 0 }

/-- One pull of an issue step, from `x` on (R134, step 4). -/
def State.issuePull (s : State) (w : Sweep) (x : Nat) : Effect :=
  let last := s.runEnd w x
  let w1 := { w with pulls := w.pulls ++ [Pull.issue s.nextUid s.nextPull x (last - x)],
                     issued := last - s.cursorBase w.range, blocked := false }
  ({ s with sweep := some w1, nextPull := s.nextPull + 1, nextUid := s.nextUid + 1 },
    [.notice (.sweepPull s.nextPull w.range x (last - x))])

/-- Pulls one after another (R134, steps 1 to 5). Each holds at least one sector and the limit is at most 64, so that 64
turns suffice. -/
def State.issuePulls : Nat → State → Effect
  | 0, s => (s, [])
  | n + 1, s =>
    match s.sweep with
    | none => (s, [])
    | some w =>
      if w.limit ≤ w.outstanding then (s, [])
      else match s.nextToIssue w with
        | none => (s, [])
        | some x =>
          if s.inAdmittedSpan x then (s.mapSweep fun y => { y with blocked := true }, [])
          else thenDo (s.issuePull w x) (State.issuePulls n)

/-- The conditions of the issue step (R133). -/
def State.mayIssue (s : State) : Bool :=
  match s.sweep with
  | none => false
  | some w =>
    w.state == .running && !s.hold && !s.enteringDeep && decide (w.outstanding < w.limit) && !s.sweepComplete w

/-- The issue step, taken where its conditions hold (R133, R134). -/
def State.issueStep (s : State) : Effect :=
  if s.mayIssue then State.issuePulls 64 (s.mapSweep fun w => { w with blocked := false }) else (s, [])

/-- The end of an event: where a job has left the table in it, the issue step (R107, R133). -/
def issueIfLeft (before : State) (e : Effect) : Effect :=
  if jobLeft before e.1 then thenDo e State.issueStep else e

/-- The re-evaluation of the waiting list, and then the issue step (R133). -/
def State.reevaluateAndIssue (s : State) : Effect := thenDo s.reevaluate State.issueStep

/-! ### The finish and the checkpoints (R75, R141, R151) -/

/-- The old slot at the finish: kept, emptied, or set draining (R75). -/
def State.retireSlot (s : State) (k : SlotNo) : SlotOutcome × State :=
  if s.slotNamed k then (.kept, s)
  else if (s.slots.get k).laneCount = 0 then (.empty, s.emptySlot k)
  else (.draining, { s with slots := s.slots.update k fun r => { r with state := .draining, drain := some .retire } })

/-- The sweep becomes IDLE, and its range's pending slot its active slot (R151, steps 1 and 3). -/
def State.promote (s : State) (w : Sweep) : State :=
  { s with
    ranges := s.ranges.update w.range fun r => { r with active := r.pending, pending := none }
    sweep := none }

/-- The finish of a complete sweep (R151). -/
def State.finishSweep (s : State) : Effect :=
  match s.sweep with
  | none => (s, [])
  | some w =>
    let retired := (s.promote w).retireSlot w.oldSlot
    thenDo
      (retired.2, [.notice (.sweepDone w.range (s.ranges.get w.range).pending w.oldSlot retired.1)])
      State.reevaluate

/-- The finish where the sweep is complete, else the issue step (R132, R146). -/
def State.finishOrIssue (s : State) : Effect :=
  match s.sweep with
  | none => (s, [])
  | some w => if s.sweepComplete w then s.finishSweep else s.issueStep

/-- The greatest multiple of 4,096 at or below a cursor (R132, R141). -/
def checkpointMultiple (cursor : Nat) : Nat := cursor / 4096 * 4096

/-- The SWEEP-CHECKPOINT notice of a sweep (R141). -/
def Sweep.checkpointNotice (w : Sweep) (cause : CheckpointCause) : OutFrame :=
  .notice (.sweepCheckpoint w.range w.oldSlot w.newSlot w.profile w.committed cause)

/-- The checkpoint test of an accepted commit that has moved the cursor (R141). -/
def State.checkpoint (s : State) : Effect :=
  match s.sweep with
  | none => (s, [])
  | some w =>
    if w.checkpoint < checkpointMultiple w.committed then
      (s.mapSweep fun x => { x with checkpoint := checkpointMultiple x.committed }, [w.checkpointNotice .multiple])
    else (s, [])

/-- The FINAL checkpoint of a sweep that is not IDLE (R141, R153 to R155). -/
def State.finalCheckpoint (s : State) : List OutFrame := s.sweep.toList.map fun w => w.checkpointNotice .final

/-- What follows an accepted commit that has moved the cursor (R139). -/
def State.afterCommit (s : State) : Effect :=
  match s.sweep with
  | none => (s, [])
  | some w =>
    if s.sweepComplete w then s.finishSweep
    else thenDo (thenDo s.checkpoint State.pauseIfEmpty) State.reevaluateAndIssue

/-! ### Hand-over of finished sectors (R96, R97, R137) -/

/-- The job's finished sector at next-out, if its reorder set holds it (R96). -/
def Job.ready (j : Job) : Option JobFinished := j.reorder.find? fun f => f.index == j.nextOut

/-- The job after the hand-over of its sector at next-out. -/
def Job.advanced (j : Job) : Job :=
  { j with nextOut := j.nextOut + 1, reorder := j.reorder.filter fun f => f.index != j.nextOut }

/-- The OK sector-out of a finished sector of a job (R96). -/
def Job.sectorOut (j : Job) (tag : Tag) (f : JobFinished) : OutFrame :=
  .jobSector (natByte tag.val) (natByte f.index) .ok (some f.buffer) (some j.uid)

/-- JOB-DONE, the elapsed time being taken modulo 2^32 (R97, R162). -/
def Job.doneNotice (j : Job) (tag : Tag) (now : Ticks) : OutFrame :=
  .notice (.jobDone tag j.count (now - j.openTick.getD now))

/-- The hand-over of a job's sectors at next-out, and its completion (R96, R97). The first argument bounds the turns; each
takes an entry from the reorder set. -/
def State.handOverJob (tag : Tag) : Nat → State → Effect
  | 0, s => (s, [])
  | n + 1, s =>
    match s.jobs.get tag with
    | none => (s, [])
    | some j =>
      match j.ready with
      | none => (s, [])
      | some f =>
        if j.advanced.nextOut = j.count then
          ({ s with jobs := s.jobs.set tag none }, [j.sectorOut tag f, j.doneNotice tag s.ticks])
        else
          thenDo ({ s with jobs := s.jobs.set tag (some j.advanced) }, [j.sectorOut tag f]) (State.handOverJob tag n)

/-- A pull's finished sector at its handed-over count (R137). -/
def Pull.ready (p : Pull) : Option PullFinished := p.reorder.find? fun f => f.offset == p.handedOver

/-- The pull after that hand-over. -/
def Pull.advanced (p : Pull) : Pull :=
  { p with handedOver := p.handedOver + 1, reorder := p.reorder.filter fun f => f.offset != p.handedOver }

/-- The OK or UNWRITTEN sector-out of a finished sector of a pull (R137). -/
def Pull.sectorOut (p : Pull) (f : PullFinished) : OutFrame :=
  .sweepSector p.number (natByte f.offset) (if f.buffer.isSome then .ok else .unwritten) f.buffer (some p.uid)

/-- The pull with number `uid` of the model's own numbering, changed by `f`. -/
def State.mapPull (s : State) (uid : Nat) (f : Pull → Pull) : State :=
  s.mapSweep fun w => { w with pulls := w.pulls.map fun p => if p.uid = uid then f p else p }

/-- The hand-over of a pull's sectors at its handed-over count (R137), in as many turns at most as the first argument
says. -/
def State.handOverPull (uid : Nat) : Nat → State → Effect
  | 0, s => (s, [])
  | n + 1, s =>
    match s.pullOwning uid with
    | none => (s, [])
    | some p =>
      match p.ready with
      | none => (s, [])
      | some f => thenDo (s.mapPull uid Pull.advanced, [p.sectorOut f]) (State.handOverPull uid n)

end Sys2Proof.Machine
end

