-- ==== Sys2Proof/Machine/JobRequests.lean ====
section
/-! DEFINITION. The requests of the Job Table (spec/06). -/

namespace Sys2Proof.Machine

/-- The first free tag found by counting upward from the pointer, passing from 31 to 0 (R87). -/
def State.freeTag (s : State) : Option Tag :=
  ((List.finRange 32).map fun i => s.nextTag + i).find? fun t => (s.jobs.get t).isNone

/-- The span of a job that OPEN-JOB names, where its fields are legal (R88, test 3). -/
structure JobFields where
  stream : StreamNo
  direction : Direction
  first : Nat
  count : Nat
deriving DecidableEq, Repr

/-- The fields of OPEN-JOB (R88, test 3). -/
def jobFieldsOf (stream direction : Byte) (first : Lba48) (count : Half) : Option JobFields :=
  if count.toNat = 0 ∨ 256 < count.toNat then none
  else
    match numberBelow 8 stream, directionOf direction with
    | some st, some d => some ⟨st, d, first.toNat, count.toNat⟩
    | _, _ => none

/-- The entry of a job at its acceptance (R24, R89): WAITING, or OPEN with its segments, age 0 and open tick. -/
def State.newJob (s : State) (f : JobFields) (segments : Option (List Segment)) : Job :=
  let st := s.streams.get f.stream
  { uid := s.nextUid
    state := if segments.isSome then .opened else .waiting
    stream := f.stream
    profile := st.profile
    format := s.profiles.get st.profile
    cls := st.cls
    direction := f.direction
    first := f.first
    count := f.count
    segments := segments.getD []
    nextIn := 0
    nextOut := 0
    reorder := []
    age := 0
    openTick := if segments.isSome then some s.ticks else none
    reason := none
    owed := none }

/-- An accepted OPEN-JOB takes tag `t` (R87, R89). -/
def State.acceptJob (s : State) (t : Tag) (f : JobFields) (segments : Option (List Segment)) : State :=
  { s with
    jobs := s.jobs.set t (some (s.newJob f segments))
    waiting := if segments.isSome then s.waiting else s.waiting ++ [t]
    nextTag := t + 1
    nextUid := s.nextUid + 1 }

/-- Tests 8 to 10 of OPEN-JOB, with the body of the refusal (R88). -/
def State.openRefusal (s : State) (f : JobFields) : Option (ReplyCode × ReplyBody) :=
  let pieces := s.spanWalk f.first f.count
  match s.unkeyedPiece pieces with
  | some p => some (.noKey, .failedRange p.range)
  | none =>
    match s.lockedPiece f.direction pieces with
    | some p => some (.locked, .failedRange p.range)
    | none =>
      if (s.resolve f.first f.count).length > 4 then
        some (.splitLimit, .segmentCount (s.resolve f.first f.count).length)
      else none

/-- The acceptance of OPEN-JOB: WAITING where the span meets the window, else OPEN at once (R89). -/
def State.openAccepted (s : State) (num : Byte) (t : Tag) (f : JobFields) : Effect :=
  if s.meetsWindow f.first f.count then
    answer (s.acceptJob t f none) .openJob num .ok (.opened t .waiting)
  else
    answer (s.acceptJob t f (some (s.resolve f.first f.count))) .openJob num .ok (.opened t .admitted)

/-- OPEN-JOB (R88, R89). -/
def execOpenJob (num : Byte) (len : Nat) (stream direction : Byte) (first : Lba48) (count : Half) (s : State) : Result :=
  onRequest .openJob num len s fun s =>
    whenProvisioned .openJob num s fun p =>
      match jobFieldsOf stream direction first count with
      | none => answer s .openJob num .badField .none
      | some f =>
        if p.capacity < f.first + f.count then answer s .openJob num .beyondEnd .none
        else if s.hold then answer s .openJob num .held .none
        else match s.freeTag with
          | none => answer s .openJob num .tableFull .none
          | some t =>
            if s.anyLaneInService = false then answer s .openJob num .noLane .none
            else match s.openRefusal f with
              | some (code, body) => answer s .openJob num code body
              | none => s.openAccepted num t f

/-- The reply to a job request with the job report (R102, R105). -/
def answerJob (s : State) (q : Request) (num : Byte) (code : ReplyCode) (t : Tag) : Effect :=
  answer s q num code (.job (s.jobReport t))

/-- A job ends CANCELLED, owing the reply; it leaves at once when no sector of it is in a lane (R101, R102). -/
def State.cancelJob (s : State) (num : Byte) (t : Tag) : Effect :=
  thenDo ((s.endJob t .cancelled (some num)).leaveIfClear t) State.settleDrains

/-- END-JOB (R102). -/
def execEndJob (num : Byte) (len : Nat) (tag : Byte) (s : State) : Result :=
  onRequest .endJob num len s fun s =>
    whenProvisioned .endJob num s fun _ =>
      match numberBelow 32 tag with
      | none => answer s .endJob num .badField .none
      | some t =>
        match s.jobs.get t with
        | none => answerJob s .endJob num .stale t
        | some j =>
          if j.state = .ending then answerJob s .endJob num .busy t
          else issueIfLeft s (s.cancelJob num t)

/-- QUERY-JOB (R105). -/
def execQueryJob (num : Byte) (len : Nat) (tag : Byte) (s : State) : Result :=
  onRequest .queryJob num len s fun s =>
    whenProvisioned .queryJob num s fun _ =>
      match numberBelow 32 tag with
      | none => answer s .queryJob num .badField .none
      | some t => answerJob s .queryJob num .ok t

end Sys2Proof.Machine
end

