-- ==== Sys2Proof/Machine/KeyRequests.lean ====
section
/-! DEFINITION. The requests of the Key Store (spec/05). -/

namespace Sys2Proof.Machine

/-- The reply to a key request with the slot report (R65). -/
def answerSlot (s : State) (q : Request) (num : Byte) (code : ReplyCode) (k : SlotNo) : Effect :=
  answer s q num code (.slot (s.slotReport k) none)

/-- The first two tests of LOAD-KEY and GENERATE-KEY (R69, R71). -/
def whenSlotAndAuthority (q : Request) (num slot auth : Byte) (s : State) (f : SlotNo → AuthNo → Effect) : Effect :=
  unlessEnteringDeep q num s
    (match numberBelow 20 slot, numberBelow 4 auth with
      | some k, some a => f k a
      | _, _ => answer s q num .badField .none)

/-- The first two tests of PURGE-KEY and QUERY-SLOT (R65, R73). -/
def whenSlot (q : Request) (num slot : Byte) (s : State) (f : SlotNo → Effect) : Effect :=
  unlessEnteringDeep q num s
    (match numberBelow 20 slot with
      | none => answer s q num .badField .none
      | some k => f k)

/-- A slot that an operation is to fill, recording its authority (R69, R71). -/
def State.filling (s : State) (k : SlotNo) (a : AuthNo) (st : SlotState) : State :=
  { s with slots := s.slots.update k fun r => { r with state := st, auth := some a } }

/-- LOAD-KEY (R69). -/
def execLoadKey (num : Byte) (len : Nat) (slot auth : Byte) (blob : KeyBlob) (s : State) : Result :=
  onRequest .loadKey num len s fun s =>
    whenSlotAndAuthority .loadKey num slot auth s fun k a =>
      match s.authorityRefusal a with
      | some code => answerSlot s .loadKey num code k
      | none =>
        if (s.slots.get k).state ≠ .empty then answerSlot s .loadKey num .slotBusy k
        else if s.workRoom = false then answerSlot s .loadKey num .busy k
        else ((s.filling k a .unwrapping).queueWork (.unwrap a k blob) num, [])

/-- GENERATE-KEY (R71). -/
def execGenerateKey (num : Byte) (len : Nat) (slot auth : Byte) (s : State) : Result :=
  onRequest .generateKey num len s fun s =>
    whenSlotAndAuthority .generateKey num slot auth s fun k a =>
      match s.authorityRefusal a with
      | some code => answerSlot s .generateKey num code k
      | none =>
        if (s.slots.get k).state ≠ .empty then answerSlot s .generateKey num .slotBusy k
        else if s.noise ≠ .healthy then answerSlot s .generateKey num .noiseNotReady k
        else if s.workRoom = false then answerSlot s .generateKey num .busy k
        else ((s.filling k a .generating).queueWork (.generation a k) num, [])

/-- PURGE-KEY (R73). -/
def execPurgeKey (num : Byte) (len : Nat) (slot : Byte) (s : State) : Result :=
  onRequest .purgeKey num len s fun s =>
    whenSlot .purgeKey num slot s fun k =>
      if (s.slots.get k).state = .empty then answerSlot s .purgeKey num .ok k
      else if (s.slots.get k).state ≠ .ready then answerSlot s .purgeKey num .slotBusy k
      else if s.slotNamed k then answerSlot s .purgeKey num .inUse k
      else if (s.slots.get k).laneCount = 0 then answerSlot (s.emptySlot k) .purgeKey num .ok k
      else
        ({ s with slots := s.slots.update k fun r => { r with state := .draining, drain := some (.purge num) } }, [])

/-- QUERY-SLOT (R65). -/
def execQuerySlot (num : Byte) (len : Nat) (slot : Byte) (s : State) : Result :=
  onRequest .querySlot num len s fun s => whenSlot .querySlot num slot s fun k => answerSlot s .querySlot num .ok k

end Sys2Proof.Machine
end

