-- ==== Sys2Proof/Machine/Aes.lean ====
section
/-! DEFINITION. AES-256, the block cipher E that the lanes use (spec/07 7.3 names it and gives no construction). PRESUMED:
the construction is the published standard's (FIPS 197); log entry 1. -/

namespace Sys2Proof.Machine

/-- One column of the cipher's state: four bytes, the first in row 0. -/
structure AesColumn where
  r0 : Byte
  r1 : Byte
  r2 : Byte
  r3 : Byte
deriving DecidableEq, Repr

/-- The cipher's state: sixteen bytes in four columns; bytes 0 to 3 of the block are column 0. -/
structure AesState where
  c0 : AesColumn
  c1 : AesColumn
  c2 : AesColumn
  c3 : AesColumn
deriving DecidableEq, Repr

/-- Byte `i` of a bit vector that holds its first byte in its low bits. -/
def byteAt {w : Nat} (i : Nat) (x : BitVec w) : Byte := x.extractLsb' (8 * i) 8

/-- The column whose bytes are bytes `i` to `i + 3`. -/
def aesColumnAt {w : Nat} (i : Nat) (x : BitVec w) : AesColumn :=
  ⟨byteAt i x, byteAt (i + 1) x, byteAt (i + 2) x, byteAt (i + 3) x⟩

/-- The state that a block is. -/
def aesOfBlock (x : Block) : AesState :=
  ⟨aesColumnAt 0 x, aesColumnAt 4 x, aesColumnAt 8 x, aesColumnAt 12 x⟩

/-- A column as 32 bits, row 0 in the low byte. -/
def aesColumnBits (c : AesColumn) : BitVec 32 := c.r3 ++ c.r2 ++ c.r1 ++ c.r0

/-- The block that a state is. -/
def aesToBlock (s : AesState) : Block :=
  aesColumnBits s.c3 ++ aesColumnBits s.c2 ++ aesColumnBits s.c1 ++ aesColumnBits s.c0

/-- The substitution of the cipher, by value. -/
def aesSboxTable : List Nat :=
  [0x63, 0x7c, 0x77, 0x7b, 0xf2, 0x6b, 0x6f, 0xc5, 0x30, 0x01, 0x67, 0x2b, 0xfe, 0xd7, 0xab, 0x76] ++
  [0xca, 0x82, 0xc9, 0x7d, 0xfa, 0x59, 0x47, 0xf0, 0xad, 0xd4, 0xa2, 0xaf, 0x9c, 0xa4, 0x72, 0xc0] ++
  [0xb7, 0xfd, 0x93, 0x26, 0x36, 0x3f, 0xf7, 0xcc, 0x34, 0xa5, 0xe5, 0xf1, 0x71, 0xd8, 0x31, 0x15] ++
  [0x04, 0xc7, 0x23, 0xc3, 0x18, 0x96, 0x05, 0x9a, 0x07, 0x12, 0x80, 0xe2, 0xeb, 0x27, 0xb2, 0x75] ++
  [0x09, 0x83, 0x2c, 0x1a, 0x1b, 0x6e, 0x5a, 0xa0, 0x52, 0x3b, 0xd6, 0xb3, 0x29, 0xe3, 0x2f, 0x84] ++
  [0x53, 0xd1, 0x00, 0xed, 0x20, 0xfc, 0xb1, 0x5b, 0x6a, 0xcb, 0xbe, 0x39, 0x4a, 0x4c, 0x58, 0xcf] ++
  [0xd0, 0xef, 0xaa, 0xfb, 0x43, 0x4d, 0x33, 0x85, 0x45, 0xf9, 0x02, 0x7f, 0x50, 0x3c, 0x9f, 0xa8] ++
  [0x51, 0xa3, 0x40, 0x8f, 0x92, 0x9d, 0x38, 0xf5, 0xbc, 0xb6, 0xda, 0x21, 0x10, 0xff, 0xf3, 0xd2] ++
  [0xcd, 0x0c, 0x13, 0xec, 0x5f, 0x97, 0x44, 0x17, 0xc4, 0xa7, 0x7e, 0x3d, 0x64, 0x5d, 0x19, 0x73] ++
  [0x60, 0x81, 0x4f, 0xdc, 0x22, 0x2a, 0x90, 0x88, 0x46, 0xee, 0xb8, 0x14, 0xde, 0x5e, 0x0b, 0xdb] ++
  [0xe0, 0x32, 0x3a, 0x0a, 0x49, 0x06, 0x24, 0x5c, 0xc2, 0xd3, 0xac, 0x62, 0x91, 0x95, 0xe4, 0x79] ++
  [0xe7, 0xc8, 0x37, 0x6d, 0x8d, 0xd5, 0x4e, 0xa9, 0x6c, 0x56, 0xf4, 0xea, 0x65, 0x7a, 0xae, 0x08] ++
  [0xba, 0x78, 0x25, 0x2e, 0x1c, 0xa6, 0xb4, 0xc6, 0xe8, 0xdd, 0x74, 0x1f, 0x4b, 0xbd, 0x8b, 0x8a] ++
  [0x70, 0x3e, 0xb5, 0x66, 0x48, 0x03, 0xf6, 0x0e, 0x61, 0x35, 0x57, 0xb9, 0x86, 0xc1, 0x1d, 0x9e] ++
  [0xe1, 0xf8, 0x98, 0x11, 0x69, 0xd9, 0x8e, 0x94, 0x9b, 0x1e, 0x87, 0xe9, 0xce, 0x55, 0x28, 0xdf] ++
  [0x8c, 0xa1, 0x89, 0x0d, 0xbf, 0xe6, 0x42, 0x68, 0x41, 0x99, 0x2d, 0x0f, 0xb0, 0x54, 0xbb, 0x16]

/-- The inverse substitution, by value. -/
def aesInvSboxTable : List Nat :=
  [0x52, 0x09, 0x6a, 0xd5, 0x30, 0x36, 0xa5, 0x38, 0xbf, 0x40, 0xa3, 0x9e, 0x81, 0xf3, 0xd7, 0xfb] ++
  [0x7c, 0xe3, 0x39, 0x82, 0x9b, 0x2f, 0xff, 0x87, 0x34, 0x8e, 0x43, 0x44, 0xc4, 0xde, 0xe9, 0xcb] ++
  [0x54, 0x7b, 0x94, 0x32, 0xa6, 0xc2, 0x23, 0x3d, 0xee, 0x4c, 0x95, 0x0b, 0x42, 0xfa, 0xc3, 0x4e] ++
  [0x08, 0x2e, 0xa1, 0x66, 0x28, 0xd9, 0x24, 0xb2, 0x76, 0x5b, 0xa2, 0x49, 0x6d, 0x8b, 0xd1, 0x25] ++
  [0x72, 0xf8, 0xf6, 0x64, 0x86, 0x68, 0x98, 0x16, 0xd4, 0xa4, 0x5c, 0xcc, 0x5d, 0x65, 0xb6, 0x92] ++
  [0x6c, 0x70, 0x48, 0x50, 0xfd, 0xed, 0xb9, 0xda, 0x5e, 0x15, 0x46, 0x57, 0xa7, 0x8d, 0x9d, 0x84] ++
  [0x90, 0xd8, 0xab, 0x00, 0x8c, 0xbc, 0xd3, 0x0a, 0xf7, 0xe4, 0x58, 0x05, 0xb8, 0xb3, 0x45, 0x06] ++
  [0xd0, 0x2c, 0x1e, 0x8f, 0xca, 0x3f, 0x0f, 0x02, 0xc1, 0xaf, 0xbd, 0x03, 0x01, 0x13, 0x8a, 0x6b] ++
  [0x3a, 0x91, 0x11, 0x41, 0x4f, 0x67, 0xdc, 0xea, 0x97, 0xf2, 0xcf, 0xce, 0xf0, 0xb4, 0xe6, 0x73] ++
  [0x96, 0xac, 0x74, 0x22, 0xe7, 0xad, 0x35, 0x85, 0xe2, 0xf9, 0x37, 0xe8, 0x1c, 0x75, 0xdf, 0x6e] ++
  [0x47, 0xf1, 0x1a, 0x71, 0x1d, 0x29, 0xc5, 0x89, 0x6f, 0xb7, 0x62, 0x0e, 0xaa, 0x18, 0xbe, 0x1b] ++
  [0xfc, 0x56, 0x3e, 0x4b, 0xc6, 0xd2, 0x79, 0x20, 0x9a, 0xdb, 0xc0, 0xfe, 0x78, 0xcd, 0x5a, 0xf4] ++
  [0x1f, 0xdd, 0xa8, 0x33, 0x88, 0x07, 0xc7, 0x31, 0xb1, 0x12, 0x10, 0x59, 0x27, 0x80, 0xec, 0x5f] ++
  [0x60, 0x51, 0x7f, 0xa9, 0x19, 0xb5, 0x4a, 0x0d, 0x2d, 0xe5, 0x7a, 0x9f, 0x93, 0xc9, 0x9c, 0xef] ++
  [0xa0, 0xe0, 0x3b, 0x4d, 0xae, 0x2a, 0xf5, 0xb0, 0xc8, 0xeb, 0xbb, 0x3c, 0x83, 0x53, 0x99, 0x61] ++
  [0x17, 0x2b, 0x04, 0x7e, 0xba, 0x77, 0xd6, 0x26, 0xe1, 0x69, 0x14, 0x63, 0x55, 0x21, 0x0c, 0x7d]

/-- The substitution of one byte. -/
def aesSub (b : Byte) : Byte := BitVec.ofNat 8 (aesSboxTable.getD b.toNat 0)

/-- The inverse substitution of one byte. -/
def aesInvSub (b : Byte) : Byte := BitVec.ofNat 8 (aesInvSboxTable.getD b.toNat 0)

/-- Multiplication by x in the cipher's field. -/
def aesTimes2 (b : Byte) : Byte := (b <<< 1) ^^^ (if b.msb then 0x1b else 0)

/-- A column with each byte changed. -/
def AesColumn.map (f : Byte → Byte) (c : AesColumn) : AesColumn := ⟨f c.r0, f c.r1, f c.r2, f c.r3⟩

/-- The bytewise XOR of two columns. -/
def AesColumn.add (a b : AesColumn) : AesColumn :=
  ⟨a.r0 ^^^ b.r0, a.r1 ^^^ b.r1, a.r2 ^^^ b.r2, a.r3 ^^^ b.r3⟩

/-- A state with each column changed. -/
def AesState.map (f : AesColumn → AesColumn) (s : AesState) : AesState := ⟨f s.c0, f s.c1, f s.c2, f s.c3⟩

/-- The bytewise XOR of two states. -/
def AesState.add (a b : AesState) : AesState :=
  ⟨a.c0.add b.c0, a.c1.add b.c1, a.c2.add b.c2, a.c3.add b.c3⟩

/-- Row r turned left by r columns. -/
def aesShiftRows (s : AesState) : AesState :=
  ⟨⟨s.c0.r0, s.c1.r1, s.c2.r2, s.c3.r3⟩, ⟨s.c1.r0, s.c2.r1, s.c3.r2, s.c0.r3⟩,
   ⟨s.c2.r0, s.c3.r1, s.c0.r2, s.c1.r3⟩, ⟨s.c3.r0, s.c0.r1, s.c1.r2, s.c2.r3⟩⟩

/-- Row r turned right by r columns. -/
def aesInvShiftRows (s : AesState) : AesState :=
  ⟨⟨s.c0.r0, s.c3.r1, s.c2.r2, s.c1.r3⟩, ⟨s.c1.r0, s.c0.r1, s.c3.r2, s.c2.r3⟩,
   ⟨s.c2.r0, s.c1.r1, s.c0.r2, s.c3.r3⟩, ⟨s.c3.r0, s.c2.r1, s.c1.r2, s.c0.r3⟩⟩

/-- Products by the coefficients of the two column mixes. -/
def aesTimes3 (b : Byte) : Byte := aesTimes2 b ^^^ b
def aesTimes9 (b : Byte) : Byte := aesTimes2 (aesTimes2 (aesTimes2 b)) ^^^ b
def aesTimes11 (b : Byte) : Byte := aesTimes2 (aesTimes2 (aesTimes2 b)) ^^^ aesTimes2 b ^^^ b
def aesTimes13 (b : Byte) : Byte := aesTimes2 (aesTimes2 (aesTimes2 b)) ^^^ aesTimes2 (aesTimes2 b) ^^^ b
def aesTimes14 (b : Byte) : Byte := aesTimes2 (aesTimes2 (aesTimes2 b)) ^^^ aesTimes2 (aesTimes2 b) ^^^ aesTimes2 b

/-- The column mix. -/
def aesMixColumn (c : AesColumn) : AesColumn :=
  ⟨aesTimes2 c.r0 ^^^ aesTimes3 c.r1 ^^^ c.r2 ^^^ c.r3,
   c.r0 ^^^ aesTimes2 c.r1 ^^^ aesTimes3 c.r2 ^^^ c.r3,
   c.r0 ^^^ c.r1 ^^^ aesTimes2 c.r2 ^^^ aesTimes3 c.r3,
   aesTimes3 c.r0 ^^^ c.r1 ^^^ c.r2 ^^^ aesTimes2 c.r3⟩

/-- The inverse column mix. -/
def aesInvMixColumn (c : AesColumn) : AesColumn :=
  ⟨aesTimes14 c.r0 ^^^ aesTimes11 c.r1 ^^^ aesTimes13 c.r2 ^^^ aesTimes9 c.r3,
   aesTimes9 c.r0 ^^^ aesTimes14 c.r1 ^^^ aesTimes11 c.r2 ^^^ aesTimes13 c.r3,
   aesTimes13 c.r0 ^^^ aesTimes9 c.r1 ^^^ aesTimes14 c.r2 ^^^ aesTimes11 c.r3,
   aesTimes11 c.r0 ^^^ aesTimes13 c.r1 ^^^ aesTimes9 c.r2 ^^^ aesTimes14 c.r3⟩

/-- The round constant of expansion round `i`, from 1. -/
def aesRoundConstant : Nat → Byte
  | 0 => 0
  | 1 => 1
  | n + 1 => aesTimes2 (aesRoundConstant n)

/-- What is added to the word eight back to form word `i` of the expanded key, from the word just before it. -/
def aesKeyTerm (i : Nat) (w : AesColumn) : AesColumn :=
  if i % 8 = 0 then
    ⟨aesSub w.r1 ^^^ aesRoundConstant (i / 8), aesSub w.r2, aesSub w.r3, aesSub w.r0⟩
  else if i % 8 = 4 then w.map aesSub
  else w

/-- `n` further words of the expanded key, from word `i` on, given the last eight, oldest first. -/
def aesExpand : Nat → Nat → List AesColumn → List AesColumn
  | 0, _, _ => []
  | n + 1, i, last =>
    let new := (last.headD ⟨0, 0, 0, 0⟩).add (aesKeyTerm i (last.getLastD ⟨0, 0, 0, 0⟩))
    new :: aesExpand n (i + 1) (last.drop 1 ++ [new])

/-- The words of an expanded key, four to a round key. -/
def aesRoundKeysOf : List AesColumn → List AesState
  | a :: b :: c :: d :: rest => ⟨a, b, c, d⟩ :: aesRoundKeysOf rest
  | _ => []

/-- The fifteen round keys of a 32-byte key. -/
def aesRoundKeys (key : BitVec 256) : List AesState :=
  let first := (List.range 8).map fun i => aesColumnAt (4 * i) key
  aesRoundKeysOf (first ++ aesExpand 52 8 first)

/-- The rounds after the first key addition: each but the last mixes the columns. -/
def aesRounds : List AesState → AesState → AesState
  | [], s => s
  | [k], s => (aesShiftRows (s.map (AesColumn.map aesSub))).add k
  | k :: ks, s => aesRounds ks (((aesShiftRows (s.map (AesColumn.map aesSub))).map aesMixColumn).add k)

/-- The inverse of `aesRounds` under the same keys. -/
def aesInvRounds : List AesState → AesState → AesState
  | [], s => s
  | [k], s => (aesInvShiftRows (s.add k)).map (AesColumn.map aesInvSub)
  | k :: ks, s =>
    (aesInvShiftRows (((aesInvRounds ks s).add k).map aesInvMixColumn)).map (AesColumn.map aesInvSub)

/-- E under a 32-byte key (7.3). -/
def blockEncipher (key : BitVec 256) (x : Block) : Block :=
  match aesRoundKeys key with
  | [] => x
  | k :: ks => aesToBlock (aesRounds ks ((aesOfBlock x).add k))

/-- D, the inverse permutation under the same key (7.3). -/
def blockDecipher (key : BitVec 256) (x : Block) : Block :=
  match aesRoundKeys key with
  | [] => x
  | k :: ks => aesToBlock ((aesInvRounds ks (aesOfBlock x)).add k)

end Sys2Proof.Machine
end

