-- ==== Sys2Proof/Machine/Cipher.lean ====
section
/-! DEFINITION. The sector cipher: data-unit numbers, tweaks, blocks, metadata, the double pass of the sweep, and the lane's
self-check (spec/07 7.3 to 7.9). -/

namespace Sys2Proof.Machine

/-- Bytes 0 to 31 of the key material (7.3). -/
def dataKey (k : KeyMaterial) : BitVec 256 := k.extractLsb' 0 256

/-- Bytes 32 to 63 of the key material (7.3). -/
def tweakKey (k : KeyMaterial) : BitVec 256 := k.extractLsb' 256 256

/-- k = D / U (R114). -/
def unitsPerSector (d : DataSize) (f : Format) : Nat := d.bytes / f.unitSize.bytes

/-- The data-unit number of unit `u` of the sector at `lba` (R114). -/
def unitNumber (k lba u : Nat) : Nat := lba * k + u

/-- Bytes 0 to 7 hold n as a 64-bit little-endian number, bytes 8 to 15 are zero (R115). -/
def tweakInput (n : Nat) : Block := (BitVec.ofNat 64 n).setWidth 128

/-- T0 of the unit with number `n` (R115). -/
def firstTweak (key : KeyMaterial) (n : Nat) : Block := blockEncipher (tweakKey key) (tweakInput n)

/-- Doubling: a shift left by one bit of the 128-bit little-endian number, and 0x87 into byte 0 where bit 127 was 1
(R115). -/
def double (t : Block) : Block := (t <<< 1) ^^^ (if t.msb then 0x87 else 0)

/-- One block under tweak `t` (R116). -/
def cipherBlock (dir : Direction) (key : KeyMaterial) (t b : Block) : Block :=
  match dir with
  | .encipher => blockEncipher (dataKey key) (b ^^^ t) ^^^ t
  | .decipher => blockDecipher (dataKey key) (b ^^^ t) ^^^ t

/-- `n` blocks in place from the front of the bytes, the first under tweak `t`, each further tweak by doubling (R115,
R116). Bytes after them stay as they are. -/
def cipherBlocks (dir : Direction) (key : KeyMaterial) : Nat → Block → List Byte → List Byte
  | 0, _, bytes => bytes
  | n + 1, t, bytes =>
    leOf 16 (cipherBlock dir key t (leTo 128 (bytes.take 16))) ++ cipherBlocks dir key n (double t) (bytes.drop 16)

/-- The blocks that CIPHER adds to the sector's last data unit (R117). -/
def metaBlocks (f : Format) : Nat :=
  match f.handling with
  | .cipher => f.metaSize.bytes / 16
  | .pass => 0

/-- `left` data units from unit `u` on, each with its own chain from its own T0, the last with the ciphered metadata; what
follows is PASS metadata, copied (R114 to R117). -/
def cipherUnits (dir : Direction) (key : KeyMaterial) (d : DataSize) (f : Format) (lba : Nat) :
    Nat → Nat → List Byte → List Byte
  | 0, _, bytes => bytes
  | left + 1, u, bytes =>
    let n := f.unitSize.bytes / 16 + (if left = 0 then metaBlocks f else 0)
    cipherBlocks dir key n (firstTweak key (unitNumber (unitsPerSector d f) lba u)) (bytes.take (16 * n)) ++
      cipherUnits dir key d f lba left (u + 1) (bytes.drop (16 * n))

/-- A sector's payload ciphered in one direction (R114 to R117). -/
def cipherSector (dir : Direction) (key : KeyMaterial) (d : DataSize) (f : Format) (lba : Nat) (bytes : List Byte) :
    List Byte :=
  cipherUnits dir key d f lba (unitsPerSector d f) 0 bytes

/-- The two passes of a sweep sector: decipher under the old key, encipher under the new, with the same LBA (R118). -/
def recipherSector (oldKey newKey : KeyMaterial) (d : DataSize) (f : Format) (lba : Nat) (bytes : List Byte) : List Byte :=
  cipherSector .encipher newKey d f lba (cipherSector .decipher oldKey d f lba bytes)

/-- The payload that a lane's main path writes. -/
def LaneTask.output (d : DataSize) (f : Format) (lba : Nat) (bytes : List Byte) : LaneTask → List Byte
  | .encipher key => cipherSector .encipher key d f lba bytes
  | .decipher key => cipherSector .decipher key d f lba bytes
  | .recipher oldKey newKey => recipherSector oldKey newKey d f lba bytes

/-- Block 0 of unit 0 of a sector. -/
def firstBlock (bytes : List Byte) : Block := leTo 128 (bytes.take 16)

/-- Block 0 of unit 0 as the lane's second path computes it: its own tweak input block, T0 and block step (R120). -/
def secondPath (dir : Direction) (key : KeyMaterial) (d : DataSize) (f : Format) (lba : Nat) (bytes : List Byte) : Block :=
  cipherBlock dir key (firstTweak key (unitNumber (unitsPerSector d f) lba 0)) (firstBlock bytes)

/-- One pass of the self-check: block 0 as the main path wrote it, `error` being what it got wrong, against the second
path (R120). -/
def passAgrees (dir : Direction) (key : KeyMaterial) (d : DataSize) (f : Format) (lba : Nat) (error : Block)
    (bytes : List Byte) : Bool :=
  firstBlock (cipherSector dir key d f lba bytes) ^^^ error == secondPath dir key d f lba bytes

/-- The self-check at a completion; a sweep sector's comparison is made for each pass (R120). -/
def LaneTask.selfCheck (d : DataSize) (f : Format) (lba : Nat) (error1 error2 : Block) (bytes : List Byte) :
    LaneTask → Bool
  | .encipher key => passAgrees .encipher key d f lba error1 bytes
  | .decipher key => passAgrees .decipher key d f lba error1 bytes
  | .recipher oldKey newKey =>
    passAgrees .decipher oldKey d f lba error1 bytes &&
      passAgrees .encipher newKey d f lba error2 (cipherSector .decipher oldKey d f lba bytes)

end Sys2Proof.Machine
end

