-- ==== Sys2Proof/Machine/LinkEvents.lean ====
section
/-! DEFINITION. The Link Port's commands: frames that are no taken request, sector-ins, and the transmitter (spec/01). -/

namespace Sys2Proof.Machine

/-- A request frame of a kind that the part does not define (R5). -/
def execUnknownRequest (kind num : Byte) (s : State) : Result :=
  if (requestOf kind).isSome then .next s
  else onFrame s fun s => (s, [.reply kind num .unknownRequest .none])

/-- The byte count that LINK-ERROR reports (R3). -/
def reportedLength (bytes : List Byte) : Nat := min bytes.length 65535

/-- A frame that fails a test of R3: it wakes the part all the same, and LINK-ERROR is raised (R3, R4). -/
def execFrameDiscarded (bytes : List Byte) (s : State) : Result :=
  match bytes, frameFault bytes with
  | [], _ => .next s
  | _ :: _, none => .next s
  | b :: rest, some reason => onFrame s fun s => (s, [.notice (.linkError reason (reportedLength (b :: rest)))])

/-- The data size D while the provisioning record is present. No sector is in the part while it is absent (R17), so that
the last case does not arise there. -/
def State.dataSize (s : State) : DataSize :=
  match s.prov with
  | some p => p.dataSize
  | none => .b512

/-- A refused job sector-in (R11). -/
def refuseJobSector (s : State) (tag index : Byte) (code : SectorCode) : Effect :=
  (s, [.jobSector tag index code none none])

/-- A job after the acceptance of its next sector-in (R10). -/
def Job.accepted (j : Job) : Job := { j with nextIn := j.nextIn + 1, age := 0 }

/-- The Lane Queue operation of a job's sector (R95, R110). -/
def Job.laneOp (j : Job) (index : Nat) : LaneOp :=
  match j.direction with
  | .encipher => .encipher (j.slotAt index)
  | .decipher => .decipher (j.slotAt index)

/-- An accepted job sector-in takes buffer `b` (R10, R25, R95). -/
def State.acceptJobSector (s : State) (tag : Tag) (j : Job) (b : BufRef) (payload : List Byte) : State :=
  { s with jobs := s.jobs.set tag (some j.accepted) }.enqueue b (.job j.uid tag j.nextIn) payload (j.first + j.nextIn)
    (j.laneOp j.nextIn) j.cls j.format

/-- The tests of R10 from the third on, for an OPEN job. -/
def State.takeJobSector (s : State) (tag index : Byte) (payload : List Byte) (t : Tag) (j : Job) : Effect :=
  if ¬ (index.toNat < j.count ∧ index.toNat = j.nextIn) then refuseJobSector s tag index .order
  else if payload.length ≠ j.format.sectorLength s.dataSize then refuseJobSector s tag index .length
  else match s.freeJobBuffer with
    | none => refuseJobSector s tag index .noBuffer
    | some b => (s.acceptJobSector t j b payload, [])

/-- JOB_SECTOR_IN (R10, R11). -/
def execJobSectorIn (tag index : Byte) (payload : List Byte) (s : State) : Result :=
  onFrame s fun s =>
    match numberBelow 32 tag with
    | none => refuseJobSector s tag index .unknownJob
    | some t =>
      match s.jobs.get t with
      | none => refuseJobSector s tag index .unknownJob
      | some j =>
        match j.state with
        | .ending => refuseJobSector s tag index .unknownJob
        | .waiting => refuseJobSector s tag index .notAdmitted
        | .opened => s.takeJobSector tag index payload t j

/-- A refused sweep sector-in (R11). -/
def refuseSweepSector (s : State) (pull : Half) (offset : Byte) (code : SectorCode) : Effect :=
  (s, [.sweepSector pull offset code none none])

/-- A pull after the acceptance of its next sector-in (R12, R136). -/
def Pull.accepted (p : Pull) : Pull := { p with received := p.received + 1, age := 0 }

/-- A finished sector joins a pull's reorder set (R12, R137). -/
def Pull.finish (p : Pull) (offset : Nat) (b : Option BufRef) : Pull := { p with reorder := ⟨offset, b⟩ :: p.reorder }

/-- An accepted UNWRITTEN sector-in: a finished entry at once, handed over in the same event where its turn is come (R12,
R136, R137). -/
def State.acceptUnwritten (s : State) (p : Pull) : Effect :=
  State.handOverPull p.uid (p.reorder.length + 1) (s.mapPull p.uid fun x => x.accepted.finish p.received none)

/-- An accepted sweep sector-in takes buffer `b` (R12, R26, R136). -/
def State.acceptSweepSector (s : State) (w : Sweep) (p : Pull) (b : BufRef) (payload : List Byte) : State :=
  (s.mapPull p.uid Pull.accepted).enqueue b (.pull p.uid p.number p.received) payload (p.first + p.received)
    (.recipher w.oldSlot w.newSlot) w.cls (s.profiles.get w.profile)

/-- The payload length that R12 asks for at test 3. -/
def State.sweepPayloadLength (s : State) (w : Sweep) (unwritten : Bool) : Nat :=
  if unwritten then 0 else (s.profiles.get w.profile).sectorLength s.dataSize

/-- The tests of R12 from the second on. -/
def State.takeSweepSector (s : State) (w : Sweep) (p : Pull) (offset : Byte) (unwritten : Bool) (payload : List Byte) :
    Effect :=
  if ¬ (offset.toNat < p.count ∧ offset.toNat = p.received) then refuseSweepSector s p.number offset .order
  else if payload.length ≠ s.sweepPayloadLength w unwritten then refuseSweepSector s p.number offset .length
  else if unwritten then s.acceptUnwritten p
  else match s.freeSweepBuffer with
    | none => refuseSweepSector s p.number offset .noBuffer
    | some b => (s.acceptSweepSector w p b payload, [])

/-- SWEEP_SECTOR_IN (R11, R12, R136). -/
def execSweepSectorIn (pull : Half) (offset : Byte) (unwritten : Bool) (payload : List Byte) (s : State) : Result :=
  onFrame s fun s =>
    match s.sweep with
    | none => refuseSweepSector s pull offset .stale
    | some w =>
      match w.pullNumbered pull with
      | none => refuseSweepSector s pull offset .stale
      | some p => s.takeSweepSector w p offset unwritten payload

/-- The transmitter, being idle, takes the head of the transmit order (R7). The bytes it sends are fixed from here. -/
def State.startSending (s : State) : State :=
  match s.sending, s.order with
  | none, f :: _ => { s with sending := some (s.frameBytes f) }
  | _, _ => s

/-- TRANSMIT_START (R7). -/
def execTransmitStart (s : State) : Result := onEvent s fun s => (s.startSending, [])

/-- The sending of an OK job sector-out clears the age of the OPEN job that handed it over (R98). -/
def State.jobProgress (s : State) (uid : Nat) (tag : Byte) : State :=
  match numberBelow 32 tag with
  | none => s
  | some t =>
    match s.jobOwning uid t with
    | none => s
    | some j => if j.state = .opened then { s with jobs := s.jobs.set t (some { j with age := 0 }) } else s

/-- What the sending of a sector-out does to its job or pull (R98, R137). -/
def State.sectorProgress (s : State) : OutFrame → State
  | .jobSector tag _ .ok _ (some uid) => s.jobProgress uid tag
  | .sweepSector _ _ .ok _ (some uid) | .sweepSector _ _ .unwritten _ (some uid) =>
    s.mapPull uid fun p => { p with sent := p.sent + 1, age := 0 }
  | _ => s

/-- The head of the transmit order has been sent: it leaves, its buffer is freed, its job or pull makes progress (R7, R13,
R98, R137). -/
def State.finishSending (s : State) : State :=
  match s.sending, s.order with
  | some _, f :: rest =>
    (({ s with order := rest, sending := none } : State).freeBuffers f.buffer.toList).sectorProgress f
  | _, _ => s

/-- FRAME_SENT (R7). -/
def execFrameSent (s : State) : Result := onEvent s fun s => (s.finishSending, [])

end Sys2Proof.Machine
end

