-- ==== Sys2Proof/Machine/PowerOps.lean ====
section
/-! DEFINITION. The shared operations of the timebase and of power: the advance of the tick counter and its carries
(spec/09), the entry to DEEP, the link reset, the supply warning and the other resets (spec/10). -/

namespace Sys2Proof.Machine

/-! ### Carries (R77, R78, R99, R148, R158) -/

/-- A carry reaches one job (R99). -/
def State.ageJob (s : State) (tag : Tag) : State :=
  match s.jobs.get tag with
  | none => s
  | some j =>
    if j.state = .opened then
      if j.age < 2 then { s with jobs := s.jobs.set tag (some { j with age := j.age + 1 }) }
      else s.endJob tag .stalled none
    else s

/-- A carry reaches the jobs: every OPEN one ages, those at age 2 end, and those of them with no sector in a lane leave in
ascending tag order (R99). -/
def State.ageJobs (s : State) : Effect :=
  thenDo ((List.finRange 32).foldl State.ageJob s).leaveAll State.settleDrains

/-- A pull that a carry would raise to age 3 (R148). -/
def Pull.stalls (p : Pull) : Bool := !p.committed && decide (2 ≤ p.age)

/-- A carry raises the age of an uncommitted pull (R148). -/
def Pull.aged (p : Pull) : Pull := if p.committed then p else { p with age := p.age + 1 }

/-- The oldest pull that a carry would raise to age 3 (R148). -/
def State.stallingPull (s : State) : Option Pull := s.sweep.bind fun w => w.pulls.find? Pull.stalls

/-- A carry reaches the pulls: all age, or the sweep collapses STALLED (R148). -/
def State.agePulls (s : State) : Effect :=
  match s.stallingPull with
  | some p => thenDo (s.collapse .stalled (some p.number)) State.settleDrains
  | none => (s.mapSweep fun w => { w with pulls := w.pulls.map Pull.aged }, [])

/-- The advance to the present counter value reaches the noise source (R77, R78). -/
def State.noiseCarry (s : State) : Effect :=
  match s.noise with
  | .warming =>
    if isCarry 14 s.ticks then
      if s.warmCount < 3 then ({ s with warmCount := s.warmCount + 1 }, [])
      else ({ s with noise := .healthy }, [.notice (.noiseHealth .healthy)])
    else (s, [])
  | .degraded => if isCarry 20 s.ticks then ({ s with noise := .warming, warmCount := 0 }, []) else (s, [])
  | .healthy | .stopped => (s, [])

/-- One user takes the carries that the advance to the present counter value is (R158). -/
def State.takeCarry (s : State) : CarryUser → Effect
  | .jobs => if isCarry (selectedBit s.interval) s.ticks then s.ageJobs else (s, [])
  | .pulls => if isCarry (selectedBit s.interval) s.ticks then s.agePulls else (s, [])
  | .noise => s.noiseCarry

/-- The tick counter advances by 1, with the carries that this is; where a job leaves, the issue step ends the event (R133,
R156, R158). -/
def State.advance (order : CarryOrder) (s : State) : Effect :=
  issueIfLeft s (forEach (carryUsers order) (fun u x => x.takeCarry u) { s with ticks := s.ticks + 1 })

/-- An advance that a condition on the state before names: where the condition fails there is no such event (log entry
6). -/
def State.advanceWhen (order : CarryOrder) (s : State) (cond : Bool) : Effect :=
  if s.awake && cond then s.advance order else (s, [])

/-- The next advance is a carry of the selected bit. -/
def State.nextIsAgeCarry (s : State) : Bool := isCarry (selectedBit s.interval) (s.ticks + 1)

/-- The next carry of the selected bit would raise some OPEN job's age to 3 (R99). -/
def State.someJobStalls (s : State) : Bool :=
  s.jobs.any fun o => match o with
    | some j => j.state == .opened && decide (2 ≤ j.age)
    | none => false

/-! ### The entry to DEEP (R171) -/

/-- The deferred reply to a DEEP request (R164). -/
def State.deepReply (s : State) (code : ReplyCode) : List OutFrame :=
  s.deepPending.toList.map fun num => replyTo .deep num code .none

/-- The entry to DEEP: the relock, the sealing, the emptying of slots, the sweep IDLE, the noise source STOPPED, the mark
removed; then the reply OK to DEEP, NOISE-HEALTH and POWER-STATE (R47, R63, R84, R154, R171, R172). -/
def State.enterDeep (s : State) (cause : PowerCause) : Effect :=
  let s1 := s.relock.emptyAllSlots
  let s2 := { s1 with auths := s1.auths.map Authority.sealedNow, sweep := none, power := .deep, deepPending := none }
  let e := s2.noiseTo .stopped
  (e.1, s.deepReply .ok ++ e.2 ++ [.notice (.powerState .deep cause)])

/-- The part enters DEEP in the first event in which no lane is BUSY while it is entering DEEP (R171). -/
def State.deepEntryIfClear (s : State) : Effect :=
  if s.enteringDeep && !s.anyLaneBusy then s.enterDeep .request else (s, [])

/-- Every tag, ascending. -/
def allTags : List Tag := List.finRange 32

/-- A DEEP request is taken (R171). -/
def State.takeDeep (num : Byte) (s : State) : Effect :=
  let left := ({ s.endKeyWork with deepPending := some num }.endJobs allTags .power).leaveAll
  let e := left.1.dropPulls.deepEntryIfClear
  (e.1, s.owedReplies.map (Owed.frame .power e.1) ++ left.2 ++ s.finalCheckpoint ++ e.2)

/-! ### The supply warning (R172) -/

/-- Every BUSY lane abandons its work and becomes IDLE; an OFFLINE lane stays so (R126). -/
def Lane.abandoned : Lane → Lane
  | .idle | .busy _ => .idle
  | .offline => .offline

/-- The supply-warning line is asserted in ACTIVE or DOZE (R172). The buffer of a frame that has begun to be sent stays
taken until it is sent (R8, R13, R16; log entry 11). -/
def State.takeSupplyWarning (s : State) : Effect :=
  let ended := s.endKeyWork.endJobs allTags .power
  let idle := { ended.dropPulls with lanes := s.lanes.map Lane.abandoned, laneQueue := [] }
  let link := (idle.withdraw OutFrame.isSector).keepBuffers fun b _ => s.begun.bind OutFrame.buffer == some b
  let left := link.leaveAll
  let e := left.1.enterDeep .supply
  (e.1, s.owedReplies.map (Owed.frame .power e.1) ++ left.2 ++ s.finalCheckpoint ++ e.2)

/-! ### Resets (R167, R168) -/

/-- The RESET replies to END-JOB requests that are owed one, in ascending tag order (R108). -/
def State.owedEndReplies (s : State) : List OutFrame :=
  allTags.filterMap fun tag =>
    match s.jobs.get tag with
    | none => none
    | some j => j.owed.map fun num => replyTo .endJob num .reset (.ended tag j.endReason j.nextIn j.nextOut)

/-- A link reset: only buffers whose sector is in a lane or whose frame has begun to be sent stay taken (R15); ranges are
relocked (R47), authorities sealed (R61), slots emptied (R83), jobs removed (R108), the Lane Queue emptied (R125), the sweep
IDLE (R153), the mark removed (R168). The receiver and the transmitter go on. The buffer that a withdrawn LANE-FAULT
sector-out still held is freed at once: DESIGN CHOICE, since R9 frees it by the sending that does not come and R15 does not
name it (log entry 25). -/
def State.linkReset (s : State) : State :=
  let keys := s.endKeyWork.relock.emptyAllSlots
  let link := (keys.withdraw OutFrame.isSector).keepBuffers fun b buf =>
    buf.stage == .inLane || s.begun.bind OutFrame.buffer == some b
  { link with
    auths := link.auths.map Authority.sealedNow
    jobs := Table.replicate 32 none
    waiting := []
    laneQueue := []
    nextArrival := 0
    sweep := none
    deepPending := none
    cause := { s.cause with last := .link, link := true } }

/-- A RESET request is taken (R168). -/
def State.takeReset (num : Byte) (s : State) : Effect :=
  let r := s.linkReset
  (r, [replyTo .reset num .ok .none] ++ s.owedReplies.map (Owed.frame .reset r) ++ s.deepReply .reset ++
    s.owedEndReplies ++ s.finalCheckpoint ++ [.notice (.started .link)])

/-- The part while a power-on or line reset holds it: every block at its initial state, with the given authorities and cause
record, and an empty transmit order (R14, R167). What the model keeps of its own stays. -/
def State.heldInReset (s : State) (auths : Table Authority 4) (cause : CauseRecord) : State :=
  { State.reset with
    inReset := true
    order := []
    auths := auths
    cause := cause
    draws := s.draws
    verifierLog := s.verifierLog
    keyLog := s.keyLog
    nextUid := s.nextUid
    pending := s.pending }

/-- An authority after a line reset (R62). -/
def Authority.afterLineReset (r : Authority) : Authority :=
  match r.state, r.op with
  | .barred, _ => { state := .barred, blob := none, key := none, op := none, failures := 5 }
  | .checking, some .check =>
    if r.failures + 1 < 5 then Authority.initial (r.failures + 1)
    else { state := .barred, blob := none, key := none, op := none, failures := 5 }
  | _, _ => Authority.initial r.failures

end Sys2Proof.Machine
end

