-- ==== Sys2Proof/Machine/LaneEvents.lean ====
section
/-! DEFINITION. The Lane Arbiter's grants and the lanes' completions (spec/07). -/

namespace Sys2Proof.Machine

/-! ### Grants (R111) -/

/-- Entry `a` is served before entry `b`: by class, then by arrival (R110, R111). -/
def QueueEntry.servedBefore (a b : QueueEntry) : Bool :=
  decide (a.cls < b.cls) || (a.cls == b.cls && decide (a.arrival < b.arrival))

/-- The entry that a grant chooses (R111). -/
def nextGranted : List QueueEntry → Option QueueEntry
  | [] => none
  | e :: rest =>
    match nextGranted rest with
    | none => some e
    | some b => if b.servedBefore e then some b else some e

/-- The key material that a lane is handed of a slot. Every slot against which a waiting sector is counted holds its key
(R66, R111), so that the last case does not arise in a grant. -/
def State.keyOf (s : State) (k : SlotNo) : KeyMaterial :=
  match (s.slots.get k).key with
  | some m => m
  | none => 0

/-- The work that a lane takes from a queue entry, with its key copies (R111). -/
def State.laneTask (s : State) : LaneOp → LaneTask
  | .encipher k => .encipher (s.keyOf k)
  | .decipher k => .decipher (s.keyOf k)
  | .recipher old new => .recipher (s.keyOf old) (s.keyOf new)

/-- The record of the lane that takes an entry (R111). -/
def State.laneWork (s : State) (e : QueueEntry) : LaneWork :=
  { owner := e.owner, buffer := e.buffer, lba := e.lba, task := s.laneTask e.op, format := e.format,
    counted := e.op.slots, since := s.ticks }

/-- A buffer's record changed by `f`, where it is taken. -/
def State.mapBuffer (s : State) (b : BufRef) (f : Buffer → Buffer) : State := s.setBuffer b ((s.buffer b).map f)

/-- An entry is granted to a lane (R111). -/
def State.grantTo (s : State) (lane : LaneNo) (e : QueueEntry) : State :=
  { s.mapBuffer e.buffer (fun x => { x with stage := .inLane }) with
    laneQueue := s.laneQueue.filter fun x => x.arrival != e.arrival
    lanes := s.lanes.set lane (.busy (s.laneWork e)) }

/-- A grant, where a lane is IDLE and the Lane Queue is not empty (R111). -/
def State.grant (s : State) : State :=
  match nextGranted s.laneQueue, s.lanes.lowest Lane.isIdle with
  | some e, some lane => s.grantTo lane e
  | _, _ => s

/-- LANE_GRANT (R111). -/
def execLaneGrant (s : State) : Result := onEvent s fun s => (s.grant, [])

/-! ### Completions (R96, R113, R120, R121, R123, R137) -/

/-- The payload in the buffer on which a lane works. -/
def State.lanePayload (s : State) (w : LaneWork) : List Byte := s.payload (some w.buffer)

/-- The self-check of a lane's work (R120). -/
def State.laneCheck (s : State) (w : LaneWork) (error1 error2 : Block) : Bool :=
  w.task.selfCheck s.dataSize w.format w.lba error1 error2 (s.lanePayload w)

/-- The buffer of a lane's work becomes FINISHED with the ciphered payload (R9). -/
def State.finishBuffer (s : State) (w : LaneWork) : State :=
  s.setBuffer w.buffer (some ⟨w.owner, .finished, w.task.output s.dataSize w.format w.lba (s.lanePayload w)⟩)

/-- The buffer of a failed sector stays taken without a usable payload (R9, R121). -/
def State.faultBuffer (s : State) (w : LaneWork) : State := s.setBuffer w.buffer (some ⟨w.owner, .finished, []⟩)

/-- A job with a finished sector added to its reorder set (R96). -/
def Job.finish (j : Job) (index : Nat) (b : BufRef) : Job := { j with reorder := ⟨index, b⟩ :: j.reorder }

/-- A sound completion for a job (R96, R97, R113, R123). -/
def State.jobCompletion (s : State) (w : LaneWork) (uid : Nat) (tag : Tag) (index : Nat) : Effect :=
  match s.jobOwning uid tag with
  | none => (s.freeBuffer w.buffer, [])
  | some j =>
    if j.state = .opened then
      State.handOverJob tag (j.reorder.length + 1)
        { s.finishBuffer w with jobs := s.jobs.set tag (some (j.finish index w.buffer)) }
    else (s.freeBuffer w.buffer).leaveIfClear tag

/-- A faulty completion for a job (R103, R113, R123). -/
def State.jobFault (s : State) (w : LaneWork) (uid : Nat) (tag : Tag) (index : Nat) : Effect :=
  match s.jobOwning uid tag with
  | none => (s.freeBuffer w.buffer, [])
  | some j =>
    if j.state = .opened then
      thenDo
        ((s.endJob tag .laneFault none).faultBuffer w,
          [.jobSector (natByte tag.val) (natByte index) .laneFault (some w.buffer) none])
        (State.leaveIfClear tag)
    else (s.freeBuffer w.buffer).leaveIfClear tag

/-- A sound completion for a pull (R113, R123, R137). -/
def State.pullCompletion (s : State) (w : LaneWork) (uid offset : Nat) : Effect :=
  match s.pullOwning uid with
  | none => (s.freeBuffer w.buffer, [])
  | some p =>
    State.handOverPull uid (p.reorder.length + 1)
      ((s.finishBuffer w).mapPull uid fun x => x.finish offset (some w.buffer))

/-- A faulty completion for a pull (R113, R123, R149). -/
def State.pullFault (s : State) (w : LaneWork) (uid : Nat) (number : Half) (offset : Nat) : Effect :=
  match s.pullOwning uid with
  | none => (s.freeBuffer w.buffer, [])
  | some _ =>
    let e := s.collapse .laneFault (some number)
    (e.1.faultBuffer w, .sweepSector number (natByte offset) .laneFault (some w.buffer) none :: e.2)

/-- The outcome goes to the sector's owner (R113). -/
def State.laneOutcome (s : State) (w : LaneWork) (sound : Bool) : Effect :=
  match w.owner with
  | .job uid tag index => if sound then s.jobCompletion w uid tag index else s.jobFault w uid tag index
  | .pull uid number offset => if sound then s.pullCompletion w uid offset else s.pullFault w uid number offset

/-- The lane and the hold after a completion, with the lane counts lowered (R66, R113, R121). -/
def State.laneReleased (s : State) (lane : LaneNo) (w : LaneWork) (sound : Bool) : State :=
  { s.lowerCounts w.counted with
    lanes := s.lanes.set lane (if sound then .idle else .offline)
    hold := s.hold || !sound }

/-- The HOLD notice of a lane fault (R121, R173). -/
def holdNotice (lane : LaneNo) (sound : Bool) : List OutFrame := if sound then [] else [.notice (.hold lane)]

/-- The event of a completion: the owner's frames, the drains that end, the issue step where a job has left, HOLD, and the
entry to DEEP (R74, R107, R113, R121, R171). -/
def State.complete (s : State) (lane : LaneNo) (w : LaneWork) (sound : Bool) : Effect :=
  let e := issueIfLeft s (thenDo ((s.laneReleased lane w sound).laneOutcome w sound) State.settleDrains)
  thenDo (e.1, e.2 ++ holdNotice lane sound) State.deepEntryIfClear

/-- LANE_COMPLETION (R113). -/
def execLaneCompletion (lane : LaneNo) (error1 error2 : Block) (s : State) : Result :=
  onEvent s fun s =>
    match s.lanes.get lane with
    | .busy w => s.complete lane w (s.laneCheck w error1 error2)
    | .idle | .offline => (s, [])

end Sys2Proof.Machine
end

