-- ==== Sys2Proof/Machine/PowerRequests.lean ====
section
/-! DEFINITION. The requests of Power and Hold Control and of the Timebase (spec/10, spec/09). -/

namespace Sys2Proof.Machine

/-- The record that PROVISION's fields name, where each is legal (R165, test 3). -/
def provisioningOf (capacity : Lba64) (dataSize : Half) (owner lorRead lorWrite : Byte) : Option Provisioning :=
  if capacity.toNat = 0 ∨ 2 ^ 48 < capacity.toNat then none
  else
    match dataSizeOf dataSize, numberBelow 4 owner, flagOf lorRead, flagOf lorWrite with
    | some d, some o, some lr, some lw => some ⟨capacity.toNat, d, o, lr, lw⟩
    | _, _, _, _ => none

/-- The provisioning record is stored, and range 0's locks take its lock-on-reset flags (R28, R165). -/
def State.provisioned (s : State) (p : Provisioning) : State :=
  { s with
    prov := some p
    ranges := s.ranges.update 0 fun r => { r with readLock := p.lorRead, writeLock := p.lorWrite } }

/-- PROVISION (R165). -/
def execProvision (num : Byte) (len : Nat) (capacity : Lba64) (dataSize : Half) (owner lorRead lorWrite : Byte)
    (s : State) : Result :=
  onRequest .provision num len s fun s =>
    unlessEnteringDeep .provision num s
      (match s.prov with
        | some held => answer s .provision num .alreadySet (.provisioning held)
        | none =>
          match provisioningOf capacity dataSize owner lorRead lorWrite with
          | none => answer s .provision num .badField .none
          | some p => answer (s.provisioned p) .provision num .ok (.provisioning p))

/-- STATUS: the body is formed, and then the three flags of the reset cause record are cleared (R166). -/
def execStatus (num : Byte) (len : Nat) (s : State) : Result :=
  onRequest .status num len s fun s =>
    unlessEnteringDeep .status num s
      (answer { s with cause := { s.cause with power := false, line := false, link := false } } .status num .ok
        (.status s.statusBody))

/-- RESET, taken in any power state and while the part is entering DEEP (R168). -/
def execReset (num : Byte) (len : Nat) (s : State) : Result :=
  onRequest .reset num len s fun s => s.takeReset num

/-- SET-INTERVAL: an index above 3 is taken as 3 (R159). -/
def execSetInterval (num : Byte) (len : Nat) (index : Byte) (s : State) : Result :=
  onRequest .setInterval num len s fun s =>
    unlessEnteringDeep .setInterval num s
      (answer { s with interval := clampToThree index } .setInterval num .ok (.interval (clampToThree index) s.ticks))

/-- Something that DOZE waits for: a job, a sweep neither IDLE nor PAUSED, work for the wrap unit, a drain, a BUSY lane
(R169, tests 2 to 6). -/
def State.dozeBusy (s : State) : Bool :=
  s.jobs.any Option.isSome ||
  (match s.sweep with | some w => w.state != .paused | none => false) ||
  s.workOps != 0 ||
  s.slots.any (fun r => r.state == .draining) ||
  s.anyLaneBusy

/-- DOZE (R169). -/
def execDoze (num : Byte) (len : Nat) (s : State) : Result :=
  onRequest .doze num len s fun s =>
    unlessEnteringDeep .doze num s
      (if s.dozeBusy then answer s .doze num .busy .none
       else thenDo (answer { s with power := .doze } .doze num .ok .none) fun x => x.noiseTo .stopped)

/-- DEEP: refused POWER while the part is already entering DEEP, else taken (R171). -/
def execDeep (num : Byte) (len : Nat) (s : State) : Result :=
  onRequest .deep num len s fun s => unlessEnteringDeep .deep num s (s.takeDeep num)

/-- RELEASE-HOLD (R173). -/
def execReleaseHold (num : Byte) (len : Nat) (s : State) : Result :=
  onRequest .releaseHold num len s fun s =>
    unlessEnteringDeep .releaseHold num s
      (if s.anyLaneInService = false then answer s .releaseHold num .noLane s.holdBody
       else if s.hold then
         replyFirst ({ s with hold := false }).reevaluateAndIssue fun x => replyTo .releaseHold num .ok x.holdBody
       else answer s .releaseHold num .ok s.holdBody)

end Sys2Proof.Machine
end

