-- ==== Sys2Proof/Machine/ProfileRequests.lean ====
section
/-! DEFINITION. The requests of the Profile Map (spec/02). -/

namespace Sys2Proof.Machine

/-- The format that SET-PROFILE's fields name, where each is legal and the combination is (R21, tests 4 to 6). -/
def formatOf (d : DataSize) (unitSize : Half) (metaSize handling : Byte) : Option Format :=
  match dataSizeOf unitSize, metaSizeOf metaSize, handlingOf handling with
  | some u, some m, some h => if Format.legal d ⟨u, m, h⟩ then some ⟨u, m, h⟩ else none
  | _, _, _ => none

/-- The sweep record names this profile (R21, test 8). -/
def State.sweepNamesProfile (s : State) (p : ProfileNo) : Bool :=
  match s.sweep with
  | some w => w.profile == p
  | none => false

/-- SET-PROFILE (R21, R23). -/
def execSetProfile (num : Byte) (len : Nat) (profile : Byte) (unitSize : Half) (metaSize handling : Byte) (s : State) :
    Result :=
  onRequest .setProfile num len s fun s =>
    whenProvisioned .setProfile num s fun prov =>
      match numberBelow 8 profile, formatOf prov.dataSize unitSize metaSize handling with
      | some p, some f =>
        if s.profileInUse p then answer s .setProfile num .inUse (.profile (s.profiles.get p))
        else if s.sweepNamesProfile p then answer s .setProfile num .sweeping (.profile (s.profiles.get p))
        else answer { s with profiles := s.profiles.set p f } .setProfile num .ok (.profile f)
      | _, _ => answer s .setProfile num .badField .none

/-- SET-STREAM: a class above 3 is stored as 3 (R20, R22, R23). -/
def execSetStream (num : Byte) (len : Nat) (stream profile cls : Byte) (s : State) : Result :=
  onRequest .setStream num len s fun s =>
    whenProvisioned .setStream num s fun _ =>
      match numberBelow 8 stream, numberBelow 8 profile with
      | some st, some p =>
        if s.streamInUse st then answer s .setStream num .inUse (.stream (s.streams.get st))
        else
          let r : StreamRec := ⟨p, clampToThree cls⟩
          answer { s with streams := s.streams.set st r } .setStream num .ok (.stream r)
      | _, _ => answer s .setStream num .badField .none

end Sys2Proof.Machine
end

