-- ==== Sys2Proof/Machine/RangeRequests.lean ====
section
/-! DEFINITION. The requests of the Range Table (spec/03). -/

namespace Sys2Proof.Machine

/-- The reply to a range request with the range report (R34). -/
def answerRange (s : State) (q : Request) (num : Byte) (code : ReplyCode) (r : RangeNo) : Effect :=
  answer s q num code (.range (s.rangeReport r))

/-- The owner and flags of DEFINE-RANGE, tested only when the length is above 0: the outer none is a bad field, the inner
none a length of 0 (R35, test 3). -/
def definitionOf (base length : Lba48) (owner lorRead lorWrite : Byte) : Option (Option RangeDef) :=
  if length = 0 then some none
  else
    match numberBelow 4 owner, flagOf lorRead, flagOf lorWrite with
    | some o, some lr, some lw => some (some ⟨base.toNat, length.toNat, o, lr, lw⟩)
    | _, _, _ => none

/-- Two runs of LBAs share one. -/
def runsMeet (first count base length : Nat) : Bool := decide (max first base < min (first + count) (base + length))

/-- A span meets the extent of a definition. -/
def meetsDefinition (first count : Nat) : Option RangeDef → Bool
  | some d => runsMeet first count d.base d.length
  | none => false

/-- The new extent shares an LBA with another DEFINED range (R35, test 7). -/
def State.overlaps (s : State) (r : RangeNo) (d : RangeDef) : Bool :=
  (List.finRange 17).any fun i => i != r && meetsDefinition d.base d.length (s.ranges.get i).definition

/-- An OPEN or WAITING job has a span that meets the present or the new extent of the range (R35, test 8). -/
def State.definitionInUse (s : State) (r : RangeNo) (d : Option RangeDef) : Bool :=
  s.jobs.any fun o => match o with
    | some j =>
      (j.state == .opened || j.state == .waiting) &&
        (meetsDefinition j.first j.count (s.ranges.get r).definition || meetsDefinition j.first j.count d)
    | none => false

/-- The sweep names this range or range 0 (R35, test 9). -/
def State.sweepBarsDefinition (s : State) (r : RangeNo) : Bool :=
  match s.sweep with
  | some w => w.range == r || w.range == 0
  | none => false

/-- The authority's record says BARRED. -/
def State.barred (s : State) (a : AuthNo) : Bool := (s.auths.get a).state == .barred

/-- Tests 4 to 9 of DEFINE-RANGE: the refusal of the first that fails (R35). -/
def State.defineRefusal (s : State) (p : Provisioning) (r : RangeNo) (d : Option RangeDef) : Option ReplyCode :=
  if s.barred 0 || (match d with | some x => s.barred x.owner | none => false) then some .barred
  else if (s.auths.get 0).state ≠ .opened then some .notAuthorised
  else if (match d with | some x => decide (p.capacity < x.base + x.length) | none => false) then some .beyondEnd
  else if (match d with | some x => s.overlaps r x | none => false) then some .overlap
  else if s.definitionInUse r d then some .inUse
  else if s.sweepBarsDefinition r then some .sweeping
  else none

/-- A range record redefined: DEFINED afresh with its lock-on-reset flags as locks and no key (R36), or UNDEFINED, where it
was DEFINED (R37). -/
def RangeRec.redefined (x : RangeRec) : Option RangeDef → RangeRec
  | some d => { x with definition := some d, readLock := d.lorRead, writeLock := d.lorWrite, active := none }
  | none =>
    if x.definition.isSome then { x with definition := none, readLock := false, writeLock := false, active := none }
    else x

/-- DEFINE-RANGE (R35 to R37). -/
def execDefineRange (num : Byte) (len : Nat) (range : Byte) (base length : Lba48) (owner lorRead lorWrite : Byte)
    (s : State) : Result :=
  onRequest .defineRange num len s fun s =>
    whenProvisioned .defineRange num s fun p =>
      match definableRange range, definitionOf base length owner lorRead lorWrite with
      | some r, some d =>
        match s.defineRefusal p r d with
        | some code => answerRange s .defineRange num code r
        | none => answerRange { s with ranges := s.ranges.update r fun x => x.redefined d } .defineRange num .ok r
      | _, _ => answer s .defineRange num .badField .none

/-- What a request that requires a range's owner gives (R33, R38, tests 5 and 6). -/
def State.ownerRefusal (s : State) (r : RangeNo) : Option ReplyCode := (s.rangeOwner r).bind s.authorityRefusal

/-- The sweep names this range (R38, test 8). -/
def State.sweepNames (s : State) (r : RangeNo) : Bool :=
  match s.sweep with
  | some w => w.range == r
  | none => false

/-- What is wrong with a slot that a range of this owner is to name (R38, tests 9 to 11; R131, tests 10 to 12). -/
def State.slotRefusal (s : State) (r : RangeNo) (k : SlotNo) : Option ReplyCode :=
  if (s.slots.get k).state = .empty then some .slotEmpty
  else if (s.slots.get k).state ≠ .ready then some .slotBusy
  else if (s.slots.get k).auth ≠ s.rangeOwner r then some .notAuthorised
  else none

/-- Tests 5 to 11 of BIND-KEY (R38). -/
def State.bindRefusal (s : State) (r : RangeNo) (k : Option SlotNo) : Option ReplyCode :=
  match s.ownerRefusal r with
  | some code => some code
  | none =>
    if s.openOnRange r then some .inUse
    else if s.sweepNames r then some .sweeping
    else k.bind (s.slotRefusal r)

/-- BIND-KEY (R38, R39). -/
def execBindKey (num : Byte) (len : Nat) (range slot : Byte) (s : State) : Result :=
  onRequest .bindKey num len s fun s =>
    whenProvisioned .bindKey num s fun _ =>
      match numberBelow 17 range, slotOrNone slot with
      | some r, some k =>
        if s.rangeUsable r = false then answer s .bindKey num .badField .none
        else match s.bindRefusal r k with
          | some code => answerRange s .bindKey num code r
          | none => answerRange { s with ranges := s.ranges.update r fun x => { x with active := k } } .bindKey num .ok r
      | _, _ => answer s .bindKey num .badField .none

/-- The fields of LOCK-RANGE and UNLOCK-RANGE, where they pass tests 3 and 4 (R40, R44). -/
def State.lockFields (s : State) (range readSelect writeSelect : Byte) : Option (RangeNo × Bool × Bool) :=
  match numberBelow 17 range, flagOf readSelect, flagOf writeSelect with
  | some r, some rs, some ws => if (rs || ws) && s.rangeUsable r then some (r, rs, ws) else none
  | _, _, _ => none

/-- The locks selected are set (R40). -/
def State.setLocks (s : State) (r : RangeNo) (rs ws : Bool) : State :=
  { s with ranges := s.ranges.update r fun x => { x with readLock := x.readLock || rs, writeLock := x.writeLock || ws } }

/-- The locks selected are cleared (R44). -/
def State.clearLocks (s : State) (r : RangeNo) (rs ws : Bool) : State :=
  { s with
    ranges := s.ranges.update r fun x => { x with readLock := x.readLock && !rs, writeLock := x.writeLock && !ws } }

/-- The OPEN jobs that a lock now set on a range reaches, in ascending tag order (R41). -/
def State.jobsBlockedBy (s : State) (r : RangeNo) : List Tag :=
  s.jobs.numbers fun o => match o with
    | some j => j.state == .opened && j.onRange r && (s.ranges.get r).blocks j.direction
    | none => false

/-- The jobs that a lock reaches end, and those with no sector in a lane leave (R41). -/
def State.endBlocked (s : State) (r : RangeNo) : Effect :=
  thenDo (s.endJobs (s.jobsBlockedBy r) .locked).leaveAll State.settleDrains

/-- LOCK-RANGE (R40, R41). -/
def execLockRange (num : Byte) (len : Nat) (range readSelect writeSelect : Byte) (s : State) : Result :=
  onRequest .lockRange num len s fun s =>
    whenProvisioned .lockRange num s fun _ =>
      match s.lockFields range readSelect writeSelect with
      | none => answer s .lockRange num .badField .none
      | some (r, rs, ws) =>
        replyFirst (issueIfLeft s ((s.setLocks r rs ws).endBlocked r)) fun x =>
          replyTo .lockRange num .ok (.range (x.rangeReport r))

/-- UNLOCK-RANGE (R44). -/
def execUnlockRange (num : Byte) (len : Nat) (range readSelect writeSelect : Byte) (s : State) : Result :=
  onRequest .unlockRange num len s fun s =>
    whenProvisioned .unlockRange num s fun _ =>
      match s.lockFields range readSelect writeSelect with
      | none => answer s .unlockRange num .badField .none
      | some (r, rs, ws) =>
        match s.ownerRefusal r with
        | some code => answerRange s .unlockRange num code r
        | none => answerRange (s.clearLocks r rs ws) .unlockRange num .ok r

/-- QUERY-RANGE (R45). -/
def execQueryRange (num : Byte) (len : Nat) (range : Byte) (s : State) : Result :=
  onRequest .queryRange num len s fun s =>
    whenProvisioned .queryRange num s fun _ =>
      match numberBelow 17 range with
      | none => answer s .queryRange num .badField .none
      | some r => answerRange s .queryRange num .ok r

end Sys2Proof.Machine
end

