-- ==== Sys2Proof/Machine/ResetEvents.lean ====
section
/-! DEFINITION. The resets, the supply-warning line, and the parts of an event that the table also lists (spec/10 and the
rules named). -/

namespace Sys2Proof.Machine

/-- POWER_ON_RESET (R14, R62, R166, R167). -/
def execPowerOnReset (s : State) : Result :=
  .next (s.heldInReset (Table.replicate 4 (Authority.initial 0)) ⟨.power, true, false, false⟩)

/-- LINE_RESET (R14, R62, R166, R167). -/
def execLineReset (s : State) : Result :=
  .next (s.heldInReset (s.auths.map Authority.afterLineReset) { s.cause with last := .line, line := true })

/-- RESET_END: STARTED joins the empty transmit order (R167). -/
def execResetEnd (s : State) : Result :=
  if s.inReset then conclude ({ s with inReset := false }, [.notice (.started s.cause.last)]) else .next s

/-- SUPPLY_WARNING: the line is asserted; in DEEP this has no effect (R172). -/
def execSupplyWarning (s : State) : Result :=
  onEvent s fun s => if s.power = .deep then (s, []) else s.takeSupplyWarning

/-- DEEP_ENTRY: the part of an event that enters DEEP (R171). -/
def execDeepEntry (s : State) : Result := onEvent s State.deepEntryIfClear

/-- DRAIN_COMPLETE: the part of an event that completes a slot's drain (R74). -/
def execDrainComplete (slot : SlotNo) (s : State) : Result :=
  onEvent s fun s => if (s.slots.get slot).drained then s.completeDrain slot else (s, [])

/-- JOB_LEAVE: the part of an event in which an ENDING job leaves the table, and the issue step that its leaving brings
(R101, R107). -/
def execJobLeave (tag : Tag) (s : State) : Result := onEvent s fun s => issueIfLeft s (s.leaveIfClear tag)

/-- JOB_ADMISSION: the part of an event that re-checks a WAITING job, and the issue step where the re-check removes it (R94,
R107); the hold suspends it (R93). -/
def execJobAdmission (tag : Tag) (s : State) : Result :=
  onEvent s fun s => if s.hold then (s, []) else issueIfLeft s (s.recheck tag)

/-- ISSUE_STEP: the part of an event that issues pulls (R133, R134). -/
def execIssueStep (s : State) : Result := onEvent s State.issueStep

/-- SWEEP_PAUSE_COMPLETE: the part of an event in which a sweep in PAUSING whose list is empty, and which is not complete,
becomes PAUSED (R143). -/
def execSweepPauseComplete (s : State) : Result :=
  onEvent s fun s => match s.sweep with
    | some w => if s.sweepComplete w || s.enteringDeep then (s, []) else s.pauseIfEmpty
    | none => (s, [])

end Sys2Proof.Machine
end

