-- ==== Sys2Proof/Machine/SweepRequests.lean ====
section
/-! DEFINITION. The requests of the Sweep Engine (spec/08). -/

namespace Sys2Proof.Machine

/-- The reply to a sweep request with the sweep report (R130). -/
def answerSweep (s : State) (q : Request) (num : Byte) (code : ReplyCode) : Effect :=
  answer s q num code (.sweep s.sweepReport)

/-- The effect of an accepted sweep request, its reply OK first and with the report of the sweep after the event (R130,
R140). -/
def acceptSweep (q : Request) (num : Byte) (e : Effect) : Effect :=
  replyFirst e fun x => replyTo q num .ok (.sweep x.sweepReport)

/-- What START-SWEEP names, where its fields are legal, clamped (R131). -/
structure SweepFields where
  range : RangeNo
  newSlot : SlotNo
  profile : ProfileNo
  limit : Nat
  cls : ClassNo
  start : Nat
  startPaused : Bool
deriving DecidableEq, Repr

/-- The fields of START-SWEEP (R131, test 3, and the clamping). -/
def sweepFieldsOf (range newSlot profile limit cls : Byte) (start : Lba64) (startPaused : Byte) : Option SweepFields :=
  match numberBelow 17 range, numberBelow 20 newSlot, numberBelow 8 profile, flagOf startPaused with
  | some r, some k, some p, some f => some ⟨r, k, p, clampLimit limit, clampToThree cls, start.toNat, f⟩
  | _, _, _, _ => none

/-- An OPEN or WAITING job's span meets an LBA of the extent below the start cursor (R131, test 14). -/
def State.startInUse (s : State) (f : SweepFields) : Bool :=
  s.jobs.any fun o => match o with
    | some j =>
      (j.state == .opened || j.state == .waiting) &&
        s.spanMeetsCursors j.first (j.first + j.count) f.range 0 f.start
    | none => false

/-- Tests 8 to 14 of START-SWEEP; the refusal BAD-FIELD of test 9 carries no body (R130, R131). -/
def State.startRefusal (s : State) (f : SweepFields) : Option ReplyCode :=
  match (s.ranges.get f.range).active with
  | none => some .noKey
  | some old =>
    if f.newSlot = old then some .badField
    else match s.slotRefusal f.range f.newSlot with
      | some code => some code
      | none =>
        if s.extentEnd f.range < f.start then some .beyondEnd
        else if s.startInUse f then some .inUse
        else none

/-- The body of a refusal of a sweep request (R130). -/
def State.sweepRefusalBody (s : State) : ReplyCode → ReplyBody
  | .badField => .none
  | _ => .sweep s.sweepReport

/-- The sweep record of an accepted START-SWEEP (R132). -/
def SweepFields.sweep (f : SweepFields) (oldSlot : SlotNo) : Sweep :=
  { state := if f.startPaused then .paused else .running
    range := f.range
    oldSlot := oldSlot
    newSlot := f.newSlot
    profile := f.profile
    cls := f.cls
    limit := f.limit
    committed := f.start
    issued := f.start
    pulls := []
    checkpoint := checkpointMultiple f.start
    blocked := false }

/-- The state in which an accepted START-SWEEP leaves record and range, before anything is issued (R132). -/
def State.startedSweep (s : State) (f : SweepFields) (oldSlot : SlotNo) : State :=
  { s with
    sweep := some (f.sweep oldSlot)
    ranges := s.ranges.update f.range fun r => { r with pending := some f.newSlot } }

/-- START-SWEEP (R131, R132). -/
def execStartSweep (num : Byte) (len : Nat) (range newSlot profile limit cls : Byte) (start : Lba64) (startPaused : Byte)
    (s : State) : Result :=
  onRequest .startSweep num len s fun s =>
    whenProvisioned .startSweep num s fun _ =>
      match sweepFieldsOf range newSlot profile limit cls start startPaused with
      | none => answer s .startSweep num .badField .none
      | some f =>
        if s.rangeUsable f.range = false then answer s .startSweep num .badField .none
        else match s.ownerRefusal f.range with
          | some code => answerSweep s .startSweep num code
          | none =>
            if s.sweep.isSome then answerSweep s .startSweep num .sweeping
            else match s.startRefusal f with
              | some code => answer s .startSweep num code (s.sweepRefusalBody code)
              | none =>
                let started := s.startedSweep f ((s.ranges.get f.range).active.getD 0)
                acceptSweep .startSweep num (if f.startPaused then (started, []) else started.finishOrIssue)

/-- The first tests of the sweep requests without fields (R142), and NOT-SWEEPING while the sweep is IDLE. -/
def whenSweeping (q : Request) (num : Byte) (s : State) (f : Sweep → Effect) : Effect :=
  whenProvisioned q num s fun _ =>
    match s.sweep with
    | none => answerSweep s q num .notSweeping
    | some w => f w

/-- The sweep record's state becomes `st`. -/
def State.sweepTo (s : State) (st : SweepState) : State := s.mapSweep fun w => { w with state := st }

/-- PAUSE-SWEEP (R142). -/
def execPauseSweep (num : Byte) (len : Nat) (s : State) : Result :=
  onRequest .pauseSweep num len s fun s =>
    whenSweeping .pauseSweep num s fun w =>
      match w.state with
      | .running => acceptSweep .pauseSweep num (s.sweepTo .pausing).pauseIfEmpty
      | .pausing | .paused => answerSweep s .pauseSweep num .ok

/-- CANCEL-SWEEP (R145). -/
def execCancelSweep (num : Byte) (len : Nat) (s : State) : Result :=
  onRequest .cancelSweep num len s fun s =>
    whenSweeping .cancelSweep num s fun w =>
      match w.state with
      | .running | .pausing =>
        acceptSweep .cancelSweep num (thenDo (s.collapse .cancelled none) State.settleDrains)
      | .paused => answerSweep s .cancelSweep num .ok

/-- RESUME-SWEEP (R146). -/
def execResumeSweep (num : Byte) (len : Nat) (s : State) : Result :=
  onRequest .resumeSweep num len s fun s =>
    whenSweeping .resumeSweep num s fun w =>
      match w.state with
      | .paused => acceptSweep .resumeSweep num (s.sweepTo .running).finishOrIssue
      | .pausing => acceptSweep .resumeSweep num (s.sweepTo .running).issueStep
      | .running => answerSweep s .resumeSweep num .ok

/-- An accepted ABANDON-SWEEP: the pending slot becomes none and the sweep IDLE (R147). -/
def State.abandoned (s : State) (w : Sweep) : State :=
  { s with ranges := s.ranges.update w.range fun r => { r with pending := none }, sweep := none }

/-- ABANDON-SWEEP (R147). -/
def execAbandonSweep (num : Byte) (len : Nat) (s : State) : Result :=
  onRequest .abandonSweep num len s fun s =>
    whenSweeping .abandonSweep num s fun w =>
      match w.state with
      | .running | .pausing => answerSweep s .abandonSweep num .busy
      | .paused =>
        if 0 < w.committed then answerSweep s .abandonSweep num .migrated
        else acceptSweep .abandonSweep num (s.abandoned w).reevaluate

/-- The pull whose commit is accepted: flag set, age 0 (R139, step 1). -/
def Pull.commit (p : Pull) : Pull := { p with committed := true, age := 0 }

/-- The sweep record after an accepted commit: the committed prefix leaves, and the cursor moves to the end of the last
pull that left (R139, steps 1 to 3). -/
def Sweep.afterCommit (w : Sweep) (base : Nat) (n : Half) : Sweep :=
  let marked := w.pulls.map fun p => if p.number = n then p.commit else p
  let gone := marked.takeWhile Pull.committed
  { w with
    pulls := marked.dropWhile Pull.committed
    committed := match gone.getLast? with
      | some p => p.first + p.count - base
      | none => w.committed }

/-- The commit of a pull whose flag is clear (R139). -/
def State.commitPull (s : State) (w : Sweep) (n : Half) : Effect :=
  let w1 := w.afterCommit (s.cursorBase w.range) n
  if w1.pulls.length < w.pulls.length then ({ s with sweep := some w1 } : State).afterCommit
  else ({ s with sweep := some w1 }, [])

/-- SWEEP-COMMIT (R138, R139). -/
def execSweepCommit (num : Byte) (len : Nat) (pull : Half) (s : State) : Result :=
  onRequest .sweepCommit num len s fun s =>
    whenSweeping .sweepCommit num s fun w =>
      match w.pullNumbered pull with
      | none => answerSweep s .sweepCommit num .stale
      | some p =>
        if p.sent ≠ p.count then answerSweep s .sweepCommit num .incomplete
        else if p.committed then answerSweep s .sweepCommit num .ok
        else acceptSweep .sweepCommit num (s.commitPull w pull)

end Sys2Proof.Machine
end

