-- ==== Sys2Proof/Machine/TimeEvents.lean ====
section
/-! DEFINITION. The advance of the tick counter, with the carries that the table lists apart, and the sample test (spec/09,
spec/05). A row that names what a carry brings about is the advance whose carry does so (log entry 6). -/

namespace Sys2Proof.Machine

/-- TICK (R156). -/
def execTick (order : CarryOrder) (s : State) : Result := onEvent s fun s => s.advanceWhen order true

/-- JOB_STALL: the advance whose carry would raise an OPEN job's age to 3 (R99). -/
def execJobStall (order : CarryOrder) (s : State) : Result :=
  onEvent s fun s => s.advanceWhen order (s.nextIsAgeCarry && s.someJobStalls)

/-- PULL_STALL: the advance whose carry would raise an uncommitted pull's age to 3 (R148). -/
def execPullStall (order : CarryOrder) (s : State) : Result :=
  onEvent s fun s => s.advanceWhen order (s.nextIsAgeCarry && s.stallingPull.isSome)

/-- NOISE_HEALTHY: the advance that is the fourth carry of bit 14 in WARMING (R77). -/
def execNoiseHealthy (order : CarryOrder) (s : State) : Result :=
  onEvent s fun s =>
    s.advanceWhen order (isCarry 14 (s.ticks + 1) && s.noise == .warming && decide (3 ≤ s.warmCount))

/-- NOISE_RETRY: the advance that is a carry of bit 20 in DEGRADED (R78). -/
def execNoiseRetry (order : CarryOrder) (s : State) : Result :=
  onEvent s fun s => s.advanceWhen order (isCarry 20 (s.ticks + 1) && s.noise == .degraded)

/-- A failure of the sample test (R78). -/
def State.sampleFails (s : State) : Effect :=
  match s.noise with
  | .healthy | .warming => s.noiseTo .degraded
  | .degraded | .stopped => (s, [])

/-- SAMPLE_TEST_FAILURE (R78). -/
def execSampleTestFailure (s : State) : Result := onEvent s State.sampleFails

end Sys2Proof.Machine
end

