-- ==== Sys2Proof/Machine/WrapEvents.lean ====
section
/-! DEFINITION. The wrap unit: the start of an operation and the five completions (spec/05, spec/04). -/

namespace Sys2Proof.Machine

/-- The authority that an operation names (R67). -/
def WorkOp.auth : WorkOp → AuthNo
  | .unwrap a _ _ | .generation a _ | .check a _ | .creation a _ | .rewrap a _ => a

/-- Whether an operation needs its authority OPEN at its start (R68). -/
def WorkOp.needsOpen : WorkOp → Bool
  | .unwrap .. | .generation .. | .rewrap .. => true
  | .check .. | .creation .. => false

/-- The start tests of R68: the code of the first that fails. -/
def WorkItem.startFailure (i : WorkItem) (s : State) : Option ReplyCode :=
  if i.op.needsOpen ∧ (s.auths.get i.op.auth).state ≠ .opened then some .notAuthorised
  else if i.op.draws ∧ i.noiseLost then some .noiseLost
  else none

/-- The copy of the authority key that an unwrap, a generation or a rewrap takes (R68). -/
def WorkItem.keyTaken (i : WorkItem) (s : State) : Option AuthKey :=
  if i.op.needsOpen then (s.auths.get i.op.auth).key else none

/-- The wrap unit, being idle, takes the head of the queue (R67, R68). -/
def State.wrapStart (s : State) : Effect :=
  match s.running, s.workQueue with
  | none, i :: rest =>
    match i.startFailure s with
    | some code =>
      let s1 := ({ s with workQueue := rest } : State).workFails i.op
      (s1, [i.reply code s1])
    | none => ({ s with workQueue := rest, running := some ⟨i, i.keyTaken s, s.ticks⟩ }, [])
  | _, _ => (s, [])

/-- WRAP_UNIT_START (R68). -/
def execWrapUnitStart (s : State) : Result := onEvent s State.wrapStart

/-- The authority key that a running operation took. An operation that needs one has found its authority OPEN, which holds
one (R49), so that the last case does not arise. -/
def Running.authKey (r : Running) : AuthKey :=
  match r.key with
  | some k => k
  | none => 0

/-- A slot becomes READY with key material (R70, R72). -/
def State.ready (s : State) (k : SlotNo) (m : KeyMaterial) : State :=
  { s with slots := s.slots.update k fun r => { r with state := .ready, key := some m, laneCount := 0 } }

/-- An unwrap completes (R70). -/
def State.unwrapDone (s : State) (r : Running) : Effect :=
  match r.item.op with
  | .unwrap a k blob =>
    match s.openKeyBlob a r.authKey blob with
    | some m =>
      let s1 := { s with running := none }.ready k m
      (s1, [r.item.reply .ok s1])
    | none =>
      let s1 := { s with running := none }.emptySlot k
      (s1, [r.item.reply .badBlob s1])
  | _ => (s, [])

/-- UNWRAP_COMPLETE (R70). -/
def execUnwrapComplete (s : State) : Result :=
  onEvent s fun s => match s.running with
    | some r => s.unwrapDone r
    | none => (s, [])

/-- A generation draws its key material and completes (R72). -/
def State.generationDone (s : State) (r : Running) : Effect :=
  match r.item.op with
  | .generation a k =>
    let m := Config.noiseKey s.draws
    let blob := s.newKeyBlob a r.authKey m
    let s1 := { s with running := none, draws := s.draws + 1, keyLog := ⟨a, r.authKey, blob, m⟩ :: s.keyLog }.ready k m
    (s1, [replyTo .generateKey r.item.num .ok (.slot (s1.slotReport k) (some blob))])
  | _ => (s, [])

/-- GENERATION_COMPLETE (R72). -/
def execGenerationComplete (s : State) : Result :=
  onEvent s fun s => match s.running with
    | some r => s.generationDone r
    | none => (s, [])

/-- The outcome of a check on an authority record: the key that the held blob yields, or none (R57). -/
def State.checkOutcome (s : State) (a : AuthNo) (cred : Credential) : Option AuthKey :=
  (s.auths.get a).blob.bind fun b => s.openVerifier a cred b

/-- An authority OPEN after a good check (R57). -/
def Authority.goodCheck (r : Authority) (key : AuthKey) : Authority :=
  { r with state := .opened, key := some key, op := none, failures := 0 }

/-- A credential check completes (R57). -/
def State.checkDone (s : State) (r : Running) : Effect :=
  match r.item.op with
  | .check a cred =>
    match s.checkOutcome a cred with
    | some key =>
      let s1 := { s with running := none, auths := s.auths.update a fun x => x.goodCheck key }
      (s1, [r.item.reply .ok s1])
    | none =>
      let s1 := { s with running := none, auths := s.auths.update a Authority.badCheck }
      (s1, [r.item.reply (if (s1.auths.get a).state = .barred then .barred else .badCredential) s1])
  | _ => (s, [])

/-- CHECK_COMPLETE (R57). -/
def execCheckComplete (s : State) : Result :=
  onEvent s fun s => match s.running with
    | some r => s.checkDone r
    | none => (s, [])

/-- An authority OPEN after its creation; its failure counter is kept (R55). -/
def Authority.created (r : Authority) (blob : VerifierBlob) (key : AuthKey) : Authority :=
  { state := .opened, blob := some blob, key := some key, op := none, failures := r.failures }

/-- A creation draws its authority key and completes (R55). -/
def State.creationDone (s : State) (r : Running) : Effect :=
  match r.item.op with
  | .creation a cred =>
    let key := s.drawnAuthKey
    let blob := s.newVerifier a cred key
    let s1 := { s with running := none, draws := s.draws + 1, verifierLog := ⟨a, cred, blob, key⟩ :: s.verifierLog,
                       auths := s.auths.update a fun x => x.created blob key }
    (s1, [replyTo .createAuthority r.item.num .ok (.authority (s1.authorityReport a) (some blob))])
  | _ => (s, [])

/-- CREATION_COMPLETE (R55). -/
def execCreationComplete (s : State) : Result :=
  onEvent s fun s => match s.running with
    | some r => s.creationDone r
    | none => (s, [])

/-- A rewrap completes: the new verifier blob replaces the held one, whatever the authority's state (R59). -/
def State.rewrapDone (s : State) (r : Running) : Effect :=
  match r.item.op with
  | .rewrap a cred =>
    let blob := s.newVerifier a cred r.authKey
    let s1 := { s with running := none, verifierLog := ⟨a, cred, blob, r.authKey⟩ :: s.verifierLog,
                       auths := s.auths.update a fun x => { x with blob := some blob } }
    (s1, [replyTo .setCredential r.item.num .ok (.authority (s1.authorityReport a) (some blob))])
  | _ => (s, [])

/-- REWRAP_COMPLETE (R59). -/
def execRewrapComplete (s : State) : Result :=
  onEvent s fun s => match s.running with
    | some r => s.rewrapDone r
    | none => (s, [])

end Sys2Proof.Machine
end

