-- ==== Sys2Proof/Machine/Dispatch.lean ====
section
/-! DEFINITION. The meaning of every command: one arm per constructor of `Instr`, one call per arm. -/

namespace Sys2Proof.Machine

def exec (i : Instr) (s : State) : Host.Outcome State Fault Refusal :=
  match i with
  | .provision num len capacity dataSize owner lorRead lorWrite => Sys2Proof.Machine.execProvision num len capacity dataSize owner lorRead lorWrite s
  | .status num len => Sys2Proof.Machine.execStatus num len s
  | .reset num len => Sys2Proof.Machine.execReset num len s
  | .setInterval num len index => Sys2Proof.Machine.execSetInterval num len index s
  | .doze num len => Sys2Proof.Machine.execDoze num len s
  | .deep num len => Sys2Proof.Machine.execDeep num len s
  | .releaseHold num len => Sys2Proof.Machine.execReleaseHold num len s
  | .setProfile num len profile unitSize metaSize handling => Sys2Proof.Machine.execSetProfile num len profile unitSize metaSize handling s
  | .setStream num len stream profile cls => Sys2Proof.Machine.execSetStream num len stream profile cls s
  | .defineRange num len range base length owner lorRead lorWrite => Sys2Proof.Machine.execDefineRange num len range base length owner lorRead lorWrite s
  | .bindKey num len range slot => Sys2Proof.Machine.execBindKey num len range slot s
  | .lockRange num len range readSelect writeSelect => Sys2Proof.Machine.execLockRange num len range readSelect writeSelect s
  | .unlockRange num len range readSelect writeSelect => Sys2Proof.Machine.execUnlockRange num len range readSelect writeSelect s
  | .queryRange num len range => Sys2Proof.Machine.execQueryRange num len range s
  | .enrol num len auth blob => Sys2Proof.Machine.execEnrol num len auth blob s
  | .createAuthority num len auth cred => Sys2Proof.Machine.execCreateAuthority num len auth cred s
  | .unlockAuthority num len auth cred => Sys2Proof.Machine.execUnlockAuthority num len auth cred s
  | .sealAuthority num len auth => Sys2Proof.Machine.execSealAuthority num len auth s
  | .setCredential num len auth cred => Sys2Proof.Machine.execSetCredential num len auth cred s
  | .loadKey num len slot auth blob => Sys2Proof.Machine.execLoadKey num len slot auth blob s
  | .generateKey num len slot auth => Sys2Proof.Machine.execGenerateKey num len slot auth s
  | .purgeKey num len slot => Sys2Proof.Machine.execPurgeKey num len slot s
  | .querySlot num len slot => Sys2Proof.Machine.execQuerySlot num len slot s
  | .openJob num len stream direction first count => Sys2Proof.Machine.execOpenJob num len stream direction first count s
  | .endJob num len tag => Sys2Proof.Machine.execEndJob num len tag s
  | .queryJob num len tag => Sys2Proof.Machine.execQueryJob num len tag s
  | .startSweep num len range newSlot profile limit cls start startPaused => Sys2Proof.Machine.execStartSweep num len range newSlot profile limit cls start startPaused s
  | .pauseSweep num len => Sys2Proof.Machine.execPauseSweep num len s
  | .cancelSweep num len => Sys2Proof.Machine.execCancelSweep num len s
  | .resumeSweep num len => Sys2Proof.Machine.execResumeSweep num len s
  | .abandonSweep num len => Sys2Proof.Machine.execAbandonSweep num len s
  | .sweepCommit num len pull => Sys2Proof.Machine.execSweepCommit num len pull s
  | .unknownRequest kind num => Sys2Proof.Machine.execUnknownRequest kind num s
  | .frameDiscarded bytes => Sys2Proof.Machine.execFrameDiscarded bytes s
  | .jobSectorIn tag index payload => Sys2Proof.Machine.execJobSectorIn tag index payload s
  | .sweepSectorIn pull offset unwritten payload => Sys2Proof.Machine.execSweepSectorIn pull offset unwritten payload s
  | .transmitStart => Sys2Proof.Machine.execTransmitStart s
  | .frameSent => Sys2Proof.Machine.execFrameSent s
  | .laneGrant => Sys2Proof.Machine.execLaneGrant s
  | .laneCompletion lane error1 error2 => Sys2Proof.Machine.execLaneCompletion lane error1 error2 s
  | .wrapUnitStart => Sys2Proof.Machine.execWrapUnitStart s
  | .unwrapComplete => Sys2Proof.Machine.execUnwrapComplete s
  | .generationComplete => Sys2Proof.Machine.execGenerationComplete s
  | .checkComplete => Sys2Proof.Machine.execCheckComplete s
  | .creationComplete => Sys2Proof.Machine.execCreationComplete s
  | .rewrapComplete => Sys2Proof.Machine.execRewrapComplete s
  | .tick order => Sys2Proof.Machine.execTick order s
  | .jobStall order => Sys2Proof.Machine.execJobStall order s
  | .pullStall order => Sys2Proof.Machine.execPullStall order s
  | .noiseHealthy order => Sys2Proof.Machine.execNoiseHealthy order s
  | .noiseRetry order => Sys2Proof.Machine.execNoiseRetry order s
  | .sampleTestFailure => Sys2Proof.Machine.execSampleTestFailure s
  | .powerOnReset => Sys2Proof.Machine.execPowerOnReset s
  | .lineReset => Sys2Proof.Machine.execLineReset s
  | .supplyWarning => Sys2Proof.Machine.execSupplyWarning s
  | .resetEnd => Sys2Proof.Machine.execResetEnd s
  | .deepEntry => Sys2Proof.Machine.execDeepEntry s
  | .drainComplete slot => Sys2Proof.Machine.execDrainComplete slot s
  | .jobLeave tag => Sys2Proof.Machine.execJobLeave tag s
  | .jobAdmission tag => Sys2Proof.Machine.execJobAdmission tag s
  | .issueStep => Sys2Proof.Machine.execIssueStep s
  | .sweepPauseComplete => Sys2Proof.Machine.execSweepPauseComplete s

end Sys2Proof.Machine
end

