-- ==== Sys2Proof/Safety.lean ====
section
/-! DEFINITION. What a safe run of the part is, in the terms the claims use: a command that answers, the time limits, and
the invariants that the rules state of the whole part. -/

namespace Sys2Proof.Machine

/-- The command is done and leaves state `t`. -/
def Answers (c : Instr) (s t : State) : Prop := exec c s = .next t

/-- The command is done: it leaves state `t`, but that these frames join the transmit order (R7). -/
def Gives (c : Instr) (s t : State) (frames : List OutFrame) : Prop := Answers c s (t.emit frames)

/-- The request is answered at once with this code and body, and does nothing else after the wake (R5). -/
def OnlyReplies (c : Instr) (s : State) (r : Request) (num : Byte) (code : ReplyCode) (body : ReplyBody) : Prop :=
  Gives c s s.frameEnded [replyTo r num code body]

/-- Tests taken in order, each given by the condition under which it fails and by what is refused then: the first that fails
decides (R33, R88, R131). -/
def FirstFails {α : Type} (refused : α → Prop) : List (Prop × α) → Prop
  | [] => True
  | (fails, refusal) :: rest => (fails → refused refusal) ∧ (¬ fails → FirstFails refused rest)

/-- Every command is done, whatever the state: the part never stops. -/
def NeverStops : Prop := ∀ (c : Instr) (s : State), ∃ t, Answers c s t

/-- Every step keeps the invariant. -/
def KeptByEveryStep (inv : State → Prop) : Prop := ∀ s t : State, inv s → step s = .next t → inv t

/-- Every command keeps the invariant. -/
def KeptByEveryCommand (inv : State → Prop) : Prop := ∀ (c : Instr) (s t : State), inv s → Answers c s t → inv t

/-! ### Time limits (R68, R113). They bound when a completion falls; the model forces none (log entry 8). -/

/-- The most ticks that an operation of the wrap unit runs (R68). -/
def WorkOp.limit : WorkOp → Nat
  | .unwrap .. => 60
  | .generation .. => 200
  | .check .. => 80
  | .creation .. => 160
  | .rewrap .. => 60

/-- The most ticks that a lane works on a sector (R113). -/
def LaneTask.limit (d : DataSize) : LaneTask → Nat
  | .encipher _ | .decipher _ => match d with | .b512 => 12 | .b4096 => 70
  | .recipher .. => match d with | .b512 => 24 | .b4096 => 140

/-- No lane and no operation has run past its limit. -/
def State.inTime (s : State) : Prop :=
  (∀ l w, s.lanes.get l = .busy w → (s.ticks - w.since).toNat ≤ w.task.limit s.dataSize) ∧
    ∀ r, s.running = some r → (s.ticks - r.since).toNat ≤ r.item.op.limit

end Sys2Proof.Machine

namespace Sys2Proof

/-! ### Commands by kind -/

/-- A frame that the controller sends. -/
def Instr.isFrame (c : Instr) : Prop :=
  c.request.isSome = true ∨ (∃ kind num, c = .unknownRequest kind num) ∨ (∃ bytes, c = .frameDiscarded bytes) ∨
    (∃ tag index payload, c = .jobSectorIn tag index payload) ∨
    ∃ pull offset unwritten payload, c = .sweepSectorIn pull offset unwritten payload

/-- A request with the body length of its kind (R5, 11.3). -/
def Instr.rightLength (c : Instr) (r : Request) (num : Byte) : Prop :=
  c.request = some r ∧ c.requestNumber = some num ∧ c.bodyLength = some r.bodyLength

/-- The requests that need the provisioning record: every profile, stream, range, job and sweep request (R17). -/
def Request.needsProvisioning : Request → Bool
  | .setProfile | .setStream | .defineRange | .bindKey | .lockRange | .unlockRange | .queryRange | .openJob | .endJob
  | .queryJob | .startSweep | .pauseSweep | .cancelSweep | .resumeSweep | .abandonSweep | .sweepCommit => true
  | .provision | .status | .reset | .setInterval | .doze | .deep | .releaseHold | .enrol | .createAuthority
  | .unlockAuthority | .sealAuthority | .setCredential | .loadKey | .generateKey | .purgeKey | .querySlot => false

/-- A power-on or a line reset (R167). -/
def Instr.isHardReset (c : Instr) : Prop := c = .powerOnReset ∨ c = .lineReset

/-- An advance of the tick counter: TICK, and the rows that name what its carry brings about (R156, log entry 6). -/
def Instr.isAdvance (c : Instr) : Prop :=
  ∃ order, c = .tick order ∨ c = .jobStall order ∨ c = .pullStall order ∨ c = .noiseHealthy order ∨ c = .noiseRetry order

/-- A RESET request that is taken (R168). -/
def Instr.isLinkReset (c : Instr) : Prop := ∃ num, c = .reset num 2

end Sys2Proof

namespace Sys2Proof.Machine

/-- The part takes a request: no reset holds it and it is not entering DEEP (R14, R171). -/
def State.takesRequests (s : State) : Prop := s.inReset = false ∧ s.deepPending = none

/-! ### Power, hold, lanes -/

/-- With no lane in service the hold is set: nothing but a power-on or line reset clears it then (R121, R173). -/
def State.heldWithoutLanes (s : State) : Prop := (∀ l, s.lanes.get l = .offline) → s.hold = true

/-- The power state agrees with the mark and the noise source, and a part held in reset is at its initial state (R76, R79,
R164, R167). -/
structure State.PowerSettled (s : State) : Prop where
  mark : s.power ≠ .active → s.deepPending = none
  noise : s.noise = .stopped ↔ s.power ≠ .active
  warm : s.warmCount ≤ 3
  held : s.inReset = true → s.order = [] ∧ s.sending = none ∧ s.power = .active ∧ s.deepPending = none

/-- What a frame that is being sent is: the head of the transmit order (R7). -/
def State.sendingHead (s : State) : Prop := s.sending.isSome = true → s.order ≠ []

/-! ### Jobs -/

/-- No OPEN job and no outstanding pull has an age above 2 (R99, R148). -/
def State.agesBounded (s : State) : Prop :=
  (∀ t j, s.jobs.get t = some j → j.state = .opened → j.age ≤ 2) ∧ ∀ w, s.sweep = some w → ∀ p ∈ w.pulls, p.age ≤ 2

/-- The waiting list holds the tags of the WAITING jobs, each once (R92). -/
def State.waitingListed (s : State) : Prop :=
  s.waiting.Nodup ∧ ∀ t, t ∈ s.waiting ↔ ∃ j, s.jobs.get t = some j ∧ j.state = .waiting

/-- The Lane Queue's entries stand in the order of their arrival numbers, all below the next one (R110). -/
def State.arrivalsRise (s : State) : Prop :=
  (s.laneQueue.map QueueEntry.arrival).Pairwise (· < ·) ∧ ∀ e ∈ s.laneQueue, e.arrival < s.nextArrival

/-- A sector of the job is in a lane (R101). -/
def State.sectorInLane (s : State) (uid : Nat) : Prop :=
  ∃ l w tag index, s.lanes.get l = .busy w ∧ w.owner = .job uid tag index

/-- An owner that is a job names it by its own tag, while the job is in the table (R9). -/
def State.ownerNamed (s : State) (o : Owner) : Prop :=
  ∀ uid tag index, o = .job uid tag index → uid < s.nextUid ∧ ∀ t j, s.jobs.get t = some j → j.uid = uid → t = tag

/-- Jobs are told apart, a job in ENDING has a sector in a lane, and only such a job owes a reply to END-JOB (R9, R85,
R101). -/
structure State.JobsSettled (s : State) : Prop where
  below : ∀ t j, s.jobs.get t = some j → j.uid < s.nextUid
  apart : ∀ t u j k, s.jobs.get t = some j → s.jobs.get u = some k → j.uid = k.uid → t = u
  inLanes : ∀ l w, s.lanes.get l = .busy w → s.ownerNamed w.owner
  inQueue : ∀ e ∈ s.laneQueue, s.ownerNamed e.owner
  ending : ∀ t j, s.jobs.get t = some j → j.state = .ending → s.sectorInLane j.uid
  owed : ∀ t j, s.jobs.get t = some j → j.owed.isSome = true → j.state = .ending

/-! ### Ranges -/

/-- An LBA lies in the extent of a definition. -/
def RangeDef.covers (d : RangeDef) (x : Nat) : Prop := d.base ≤ x ∧ x < d.base + d.length

/-- The provisioning record and the DEFINED ranges keep their bounds, and no LBA lies in two of them (R28 to R31). -/
structure State.RangesSettled (s : State) : Prop where
  capacity : ∀ p, s.prov = some p → 1 ≤ p.capacity ∧ p.capacity ≤ 2 ^ 48
  zero : (s.ranges.get 0).definition = none
  within : ∀ r d, (s.ranges.get r).definition = some d →
    ∃ p, s.prov = some p ∧ 1 ≤ d.length ∧ d.base + d.length ≤ p.capacity
  apart : ∀ r q d e x, (s.ranges.get r).definition = some d → (s.ranges.get q).definition = some e → d.covers x →
    e.covers x → r = q
  unlocked : ∀ r, r ≠ 0 → (s.ranges.get r).definition = none →
    (s.ranges.get r).readLock = false ∧ (s.ranges.get r).writeLock = false

/-- What a relock event does to the ranges of `s`, `t` being the state after it: every DEFINED range and range 0 have their
locks at the lock-on-reset flags and no slots; an UNDEFINED range does not change; without a provisioning record range 0's
locks stay as they are (R47). -/
structure State.Relocked (s t : State) : Prop where
  defined : ∀ r d, r ≠ 0 → (s.ranges.get r).definition = some d →
    t.ranges.get r = ⟨some d, d.lorRead, d.lorWrite, none, none⟩
  undefined : ∀ r, r ≠ 0 → (s.ranges.get r).definition = none → t.ranges.get r = s.ranges.get r
  global : ∀ p, s.prov = some p → t.ranges.get 0 =
    { s.ranges.get 0 with readLock := p.lorRead, writeLock := p.lorWrite, active := none, pending := none }
  unprovisioned : s.prov = none → t.ranges.get 0 = { s.ranges.get 0 with active := none, pending := none }

/-! ### Authorities (R49, R57, R67) -/

/-- What an authority record holds in its state (R49). -/
def Authority.wellFormed (r : Authority) : Prop :=
  match r.state with
  | .notEnrolled => r.blob = none ∧ r.key = none ∧ r.op = none ∧ r.failures ≤ 4
  | .sealed => r.blob.isSome = true ∧ r.key = none ∧ r.op = none ∧ r.failures ≤ 4
  | .checking => r.key = none ∧ r.failures ≤ 4 ∧
      ((r.op = some .check ∧ r.blob.isSome = true) ∨ (r.op = some .create ∧ r.blob = none))
  | .opened => r.blob.isSome = true ∧ r.key.isSome = true ∧ r.op = none ∧ r.failures ≤ 4
  | .barred => r.blob = none ∧ r.key = none ∧ r.op = none ∧ r.failures = 5

/-- What cutting its check or creation off makes of an authority record `r`: a check counts as a bad check, a creation leaves
NOT-ENROLLED, and the counter of a creation stays (R61, R63). -/
structure Authority.CutOff (r u : Authority) : Prop where
  check : r.state = .checking → r.op = some .check → r.failures < 4 → u = ⟨.sealed, r.blob, none, none, r.failures + 1⟩
  barred : r.state = .checking → r.op = some .check → 4 ≤ r.failures → u = ⟨.barred, none, none, none, 5⟩
  create : r.state = .checking → r.op = some .create → u = ⟨.notEnrolled, none, none, none, r.failures⟩
  stays : r.state = .notEnrolled ∨ r.state = .sealed ∨ r.state = .barred → u = r

/-- What the sealing at the entry to DEEP makes of an authority record `r`: an OPEN one loses its key, the rest stay (R63). -/
def Authority.sealedAtEntry (r : Authority) : Authority :=
  if r.state = .opened then { r with state := .sealed, key := none } else r

/-- What a link reset, and a passage to DEEP in one event, make of an authority record `r`: a check or creation is cut off,
and an OPEN one is SEALED without its key, its verifier blob and counter kept (R61, R63). -/
structure Authority.CutAndSealed (r u : Authority) : Prop where
  cut : r.CutOff u
  opened : r.state = .opened → u = { r with state := .sealed, key := none }

/-- The operations of the Key Work Queue, the running one first (R67). -/
def State.work (s : State) : List WorkItem := (s.running.toList.map Running.item) ++ s.workQueue

/-- The operation is a check or a creation of an authority. -/
def WorkOp.settles (a : AuthNo) : WorkOp → Option AuthOp
  | .check b _ => if a = b then some .check else none
  | .creation b _ => if a = b then some .create else none
  | .unwrap .. | .generation .. | .rewrap .. => none

/-- The checks and creations of an authority among the work. -/
def State.settling (s : State) (a : AuthNo) : List AuthOp := s.work.filterMap fun i => i.op.settles a

/-- Each authority record holds what its state says, an authority is CHECKING exactly while its one check or creation is in
the Key Work Queue, and a running rewrap's authority holds a verifier blob (R49, R59, R67). -/
structure State.AuthoritiesSettled (s : State) : Prop where
  records : ∀ a, (s.auths.get a).wellFormed
  checking : ∀ a, s.settling a = (s.auths.get a).op.toList
  rewrap : ∀ r a cred, s.running = some r → r.item.op = .rewrap a cred →
    (s.auths.get a).state = .opened ∨ (s.auths.get a).state = .sealed ∨ (s.auths.get a).op = some .check
  room : s.workQueue.length ≤ 4

/-! ### Key slots and the ranges that name them (R29, R46, R64) -/

/-- What a key slot record holds in its state (R64). -/
def KeySlot.wellFormed (r : KeySlot) : Prop :=
  match r.state with
  | .empty => r.auth = none ∧ r.key = none ∧ r.drain = none
  | .unwrapping | .generating => r.auth.isSome = true ∧ r.key = none ∧ r.drain = none
  | .ready => r.auth.isSome = true ∧ r.key.isSome = true ∧ r.drain = none
  | .draining => r.auth.isSome = true ∧ r.key.isSome = true ∧ r.drain.isSome = true

/-- The state in which an operation keeps a slot, and the authority it records there (R69, R71). -/
def WorkOp.fills (k : SlotNo) : WorkOp → Option (SlotState × AuthNo)
  | .unwrap a j _ => if j = k then some (.unwrapping, a) else none
  | .generation a j => if j = k then some (.generating, a) else none
  | .check .. | .creation .. | .rewrap .. => none

/-- The operations that fill a slot. -/
def State.fillings (s : State) (k : SlotNo) : List (SlotState × AuthNo) := s.work.filterMap fun i => i.op.fills k

/-- The filling that a slot record expects. -/
def KeySlot.expects (r : KeySlot) : List (SlotState × AuthNo) :=
  match r.state, r.auth with
  | .unwrapping, some a => [(.unwrapping, a)]
  | .generating, some a => [(.generating, a)]
  | _, _ => []

/-- Each slot record holds what its state says; a slot is UNWRAPPING or GENERATING exactly while its one operation is in
the Key Work Queue; no operation is there while the part is entering DEEP; a slot that a range names is READY; an UNDEFINED
range names none; a range has a pending slot exactly while the sweep names it, and then its two slots are the sweep's and
differ (R29, R46, R64, R84). -/
structure State.KeysSettled (s : State) : Prop where
  records : ∀ k, (s.slots.get k).wellFormed
  filled : ∀ k, s.fillings k = (s.slots.get k).expects
  entering : s.deepPending.isSome = true → s.workQueue = [] ∧ s.running = none
  named : ∀ r k, (s.ranges.get r).active = some k ∨ (s.ranges.get r).pending = some k → (s.slots.get k).state = .ready
  undefined : ∀ r, r ≠ 0 → (s.ranges.get r).definition = none →
    (s.ranges.get r).active = none ∧ (s.ranges.get r).pending = none
  pending : ∀ r, (s.ranges.get r).pending.isSome = true → ∃ w, s.sweep = some w ∧ w.range = r
  swept : ∀ w, s.sweep = some w → (s.ranges.get w.range).active = some w.oldSlot ∧
    (s.ranges.get w.range).pending = some w.newSlot ∧ w.oldSlot ≠ w.newSlot

/-! ### The sweep (R127 to R129, R134, R144) -/

/-- A pull's own bounds (R129). -/
def Pull.wellFormed (p : Pull) : Prop := 1 ≤ p.count ∧ p.count ≤ 8

/-- An LBA of the run of a pull (R129). -/
def Pull.covers (p : Pull) (x : Nat) : Prop := p.first ≤ x ∧ x < p.first + p.count

/-- An LBA of a job's span (R86). -/
def Job.covers (j : Job) (x : Nat) : Prop := j.first ≤ x ∧ x < j.first + j.count

/-- The sweep record's bounds: the limit, the cursors, the pulls ascending within the swept range's extent and together
covering the window, none while PAUSED (R127 to R129, R144). -/
structure Sweep.Settled (s : State) (w : Sweep) : Prop where
  limit : 1 ≤ w.limit ∧ w.limit ≤ 64
  outstanding : w.outstanding ≤ w.limit
  pulls : ∀ p ∈ w.pulls, p.wellFormed
  ascending : w.pulls.Pairwise fun p q => p.first + p.count ≤ q.first
  above : ∀ p ∈ w.pulls, s.cursorBase w.range + w.committed ≤ p.first
  below : ∀ p ∈ w.pulls, p.first + p.count ≤ s.cursorBase w.range + w.issued
  cursors : w.committed ≤ w.issued
  extent : w.range ≠ 0 → ∃ d, (s.ranges.get w.range).definition = some d ∧ w.issued ≤ d.length
  capacity : w.range = 0 → w.issued ≤ s.capacity
  lookup : ∀ p ∈ w.pulls, ∀ x, p.covers x → s.lookup x = w.range
  cover : ∀ x, s.lookup x = w.range → s.cursorBase w.range + w.committed ≤ x → x < s.cursorBase w.range + w.issued →
    ∃ p ∈ w.pulls, p.covers x
  last : ∀ p, w.pulls.getLast? = some p → p.first + p.count = s.cursorBase w.range + w.issued
  empty : w.pulls = [] → w.issued = w.committed
  paused : w.state = .paused → w.pulls = []

/-- While the sweep is not IDLE its record keeps its bounds, and no LBA lies both in an outstanding pull and in the span of
an OPEN job (R128, R134). -/
structure State.SweepSettled (s : State) : Prop where
  ranges : s.RangesSettled
  record : ∀ w, s.sweep = some w → w.Settled s
  clear : ∀ w, s.sweep = some w → ∀ p ∈ w.pulls, ∀ t j x, s.jobs.get t = some j → j.state = .opened → p.covers x →
    ¬ j.covers x

/-! ### DEEP (R84, R104, R154, R170, R171) -/

/-- While the part is entering DEEP, and in DEEP: no key work, no slot being filled or drained, no WAITING or OPEN job, an
empty Pull List (R171). -/
structure State.WindingDown (s : State) : Prop where
  work : s.workQueue = [] ∧ s.running = none
  slots : ∀ k, (s.slots.get k).state = .empty ∨ (s.slots.get k).state = .ready
  jobs : ∀ t j, s.jobs.get t = some j → j.state = .ending
  pulls : ∀ w, s.sweep = some w → w.pulls = []

/-- What a part in DEEP holds: no job, no sweep, no key in any slot or range, and no authority OPEN or CHECKING (R63, R84,
R154, R170, R171). -/
structure State.Bare (s : State) : Prop where
  jobs : ∀ t, s.jobs.get t = none
  sweep : s.sweep = none
  slots : ∀ k, s.slots.get k = KeySlot.initial
  ranges : ∀ r, (s.ranges.get r).active = none ∧ (s.ranges.get r).pending = none
  auths : ∀ a, (s.auths.get a).state ≠ .opened ∧ (s.auths.get a).state ≠ .checking

/-- While it is entering DEEP the part winds down and a lane is BUSY, since it enters DEEP in the first event in which none is;
in DEEP it is bare (R164, R170, R171). -/
structure State.DeepSettled (s : State) : Prop where
  power : s.PowerSettled
  jobs : s.JobsSettled
  keys : s.KeysSettled
  auths : s.AuthoritiesSettled
  entering : s.deepPending.isSome = true → s.WindingDown
  busy : s.deepPending.isSome = true → ∃ l w, s.lanes.get l = .busy w
  deep : s.power = .deep → s.Bare ∧ s.WindingDown

/-! ### Segments (R86, R90) -/

/-- The records run on from index `first` to index `last` without a gap, none empty (R86). -/
def segmentsRun (last : Nat) : Nat → List Segment → Prop
  | first, [] => first = last
  | first, g :: rest => g.first = first ∧ 1 ≤ g.count ∧ segmentsRun last (first + g.count) rest

/-- A segment's LBAs lie in its range, and its slot is the range's active slot, for LBAs at or above the cursor of a sweep
of the range, or its pending slot, for LBAs below it (R86, R90, R132). -/
structure Segment.Keyed (s : State) (j : Job) (g : Segment) : Prop where
  lookup : ∀ x, j.first + g.first ≤ x → x < j.first + g.first + g.count → s.lookup x = g.range
  slot :
    ((s.ranges.get g.range).active = some g.slot ∧
      ∀ w, s.sweep = some w → w.range = g.range → s.cursorBase g.range + w.committed ≤ j.first + g.first) ∨
    ((s.ranges.get g.range).pending = some g.slot ∧
      ∀ w, s.sweep = some w → j.first + g.first + g.count ≤ s.cursorBase g.range + w.committed)

/-- Every job's span lies on the drive, and every OPEN job's segments partition its indices and are keyed (R86, R88). -/
structure State.SegmentsSettled (s : State) : Prop where
  sweep : s.SweepSettled
  deep : s.DeepSettled
  span : ∀ t j, s.jobs.get t = some j → 1 ≤ j.count ∧ j.count ≤ 256 ∧ j.first + j.count ≤ s.capacity
  partition : ∀ t j, s.jobs.get t = some j → j.state = .opened → segmentsRun j.count 0 j.segments
  keyed : ∀ t j, s.jobs.get t = some j → j.state = .opened → ∀ g ∈ j.segments, g.Keyed s j

/-! ### Where each accepted sector is (R9, R10, R12, R13, R66, R96, R110, R137) -/

/-- The works of the BUSY lanes. -/
def State.laneWorks (s : State) : List LaneWork :=
  s.lanes.rows.filterMap fun l => match l with
    | .busy w => some w
    | .idle | .offline => none

/-- The pulls in the Pull List. -/
def State.pulls (s : State) : List Pull := s.sweep.toList.flatMap Sweep.pulls

/-- The buffers of the finished sectors that stand in reorder sets. -/
def State.reorderBuffers (s : State) : List BufRef :=
  (s.jobs.rows.flatMap fun o => o.toList.flatMap fun j => j.reorder.map JobFinished.buffer) ++
    s.pulls.flatMap fun p => p.reorder.filterMap PullFinished.buffer

/-- The sectors in the part that hold a buffer, with the stage that R9 gives each: those in the Lane Queue AWAITING, those in
lanes IN-LANE, those in reorder sets and of frames in the transmit order FINISHED. -/
def State.held (s : State) : List (BufRef × Stage) :=
  s.laneQueue.map (fun e => (e.buffer, .awaiting)) ++ s.laneWorks.map (fun w => (w.buffer, .inLane)) ++
    (s.reorderBuffers ++ s.order.filterMap OutFrame.buffer).map fun b => (b, .finished)

/-- The accepted sectors that no hand-over has reached yet: in the Lane Queue, in lanes, and in reorder sets. -/
def State.sectors (s : State) : List Owner :=
  s.laneQueue.map QueueEntry.owner ++ s.laneWorks.map LaneWork.owner ++
    ((List.finRange 32).flatMap fun t => (s.jobs.get t).toList.flatMap fun j =>
      j.reorder.map fun f => Owner.job j.uid t f.index) ++
    s.pulls.flatMap fun p => p.reorder.map fun f => Owner.pull p.uid p.number f.offset

/-- The sectors counted against a slot: AWAITING, or IN-LANE and not detached (R66). -/
def State.countedAgainst (s : State) (k : SlotNo) : Nat :=
  (s.laneQueue.flatMap fun e => e.op.slots).count k + (s.laneWorks.flatMap LaneWork.counted).count k

/-- The sector of an owner is one that its OPEN job or its pull has accepted and not yet handed over. -/
def State.awaited (s : State) : Owner → Prop
  | .job uid tag index => ∃ j, s.jobs.get tag = some j ∧ j.uid = uid ∧ j.state = .opened ∧ j.nextOut ≤ index ∧
      index < j.nextIn
  | .pull uid number offset => ∃ p ∈ s.pulls, p.uid = uid ∧ p.number = number ∧ p.handedOver ≤ offset ∧
      offset < p.received

/-- The job or pull that an owner names has left, or is a job in ENDING, so that its output will be dropped (R113). -/
def State.ownerGone (s : State) : Owner → Prop
  | .job uid tag _ => uid < s.nextUid ∧ ∀ j, s.jobs.get tag = some j → j.uid = uid → j.state = .ending
  | .pull uid _ _ => uid < s.nextUid ∧ ∀ p ∈ s.pulls, p.uid ≠ uid

/-- A slot against which sectors may be counted (R66). -/
def KeySlot.countable (r : KeySlot) : Prop := r.state = .ready ∨ r.state = .draining

/-- Each accepted sector is in one place alone, in a buffer of its kind whose stage names that place, and in no other is there
a buffer taken; each slot's lane count is the number of sectors counted against it, 0 where it has no key, and no slot is left
DRAINING at count 0; the sectors of OPEN jobs and of pulls lie between what is handed over and what is accepted, each once; of a
job in ENDING or a pull that has left, sectors are in lanes alone; and of the sectors that a pull has handed over, those not
sent wait in the transmit order (R9, R10, R12, R13, R66, R74, R96, R110, R137, R138). -/
structure State.SectorsSettled (s : State) : Prop where
  apart : (s.held.map Prod.fst).Nodup
  stages : ∀ b stage, (b, stage) ∈ s.held ↔ ∃ x, s.buffer b = some x ∧ x.stage = stage
  queueOwners : ∀ e ∈ s.laneQueue, ∃ x, s.buffer e.buffer = some x ∧ x.owner = e.owner
  laneOwners : ∀ w ∈ s.laneWorks, ∃ x, s.buffer w.buffer = some x ∧ x.owner = w.owner
  jobBuffers : ∀ i x, s.jobPool.get i = some x → ∃ uid tag index, x.owner = .job uid tag index
  sweepBuffers : ∀ i x, s.sweepPool.get i = some x → ∃ uid number offset, x.owner = .pull uid number offset
  counts : ∀ k, (s.slots.get k).laneCount = s.countedAgainst k
  keyless : ∀ k, ¬ (s.slots.get k).countable → (s.slots.get k).laneCount = 0
  drains : ∀ k, (s.slots.get k).drained = false
  once : s.sectors.Nodup
  queued : ∀ e ∈ s.laneQueue, s.awaited e.owner
  inLanes : ∀ w ∈ s.laneWorks, s.awaited w.owner ∨ s.ownerGone w.owner
  jobReorder : ∀ t j, s.jobs.get t = some j → ∀ f ∈ j.reorder, s.awaited (.job j.uid t f.index)
  jobCounts : ∀ t j, s.jobs.get t = some j → j.nextOut ≤ j.nextIn ∧ j.nextIn ≤ j.count
  pullReorder : ∀ p ∈ s.pulls, ∀ f ∈ p.reorder, s.awaited (.pull p.uid p.number f.offset)
  pullNames : ((s.pulls.map Pull.uid).Nodup) ∧ ∀ p ∈ s.pulls, p.uid < s.nextUid
  pullCounts : ∀ p ∈ s.pulls, p.received ≤ p.count ∧ p.handedOver ≤ p.received ∧
    p.sent + s.order.countP (OutFrame.ofPull p.uid) = p.handedOver ∧ (p.committed = true → p.sent = p.count)
  frames : ∀ f ∈ s.order, ∀ uid, f.owner = some uid → uid < s.nextUid ∧
    ∀ number offset code b, f = .sweepSector number offset code b (some uid) → code = .ok ∨ code = .unwritten

/-! ### Drains that end (R74) -/

/-- A slot after the events at which drains are completed: EMPTY where its drain ends (R74). -/
def KeySlot.settled (r : KeySlot) : KeySlot := if r.drained then KeySlot.initial else r

/-- The replies to PURGE-KEY of the drains that end between `s` and `t`, their reports taken in `t` (R74). -/
def State.purgesEnded (s t : State) : List OutFrame :=
  (List.finRange 20).filterMap fun k =>
    match (s.slots.get k).state, (s.slots.get k).drain, (t.slots.get k).state with
    | .draining, some (.purge num), .empty => some (replyTo .purgeKey num .ok (.slot (t.slotReport k) none))
    | _, _, _ => none

/-! ### Sectors that are dropped (R8, R13, R144) -/

/-- The buffers that the dropping of some sectors frees at once: of their frames that wait, of the finished sectors that
stand in reorder sets, and of the sectors in the Lane Queue (R13). -/
def State.givenUp (s : State) (owners : Owner → Bool) (frames : OutFrame → Bool) (finished : List BufRef) : List BufRef :=
  (s.withdrawn frames).filterMap OutFrame.buffer ++ finished ++
    (s.laneQueue.filter fun e => owners e.owner).map QueueEntry.buffer

/-- What the dropping of the sectors of some owners leaves in `t`, `finished` being the buffers in their reorder sets: their
entries have left the Lane Queue, of their frames only the one being sent stays, exactly the buffers given up are freed, and
each slot's lane count has fallen by the entries counted against it, a drain that this ends being completed (R8, R13, R74). -/
structure State.Drops (s : State) (owners : Owner → Bool) (frames : OutFrame → Bool) (finished : List BufRef)
    (t : State) : Prop where
  queue : t.laneQueue = s.laneQueue.filter fun e => !owners e.owner
  order : ∀ f ∈ t.order, frames f = true → s.begun = some f
  freed : ∀ b ∈ s.givenUp owners frames finished, t.buffer b = none
  kept : ∀ b, b ∉ s.givenUp owners frames finished → t.buffer b = s.buffer b
  slots : ∀ k, t.slots.get k =
    let gone := (s.laneQueue.filter fun e => owners e.owner).flatMap fun e => e.op.slots
    ({ s.slots.get k with laneCount := (s.slots.get k).laneCount - gone.countP fun n => n = k } : KeySlot).settled

/-- The sectors of the job `j` are dropped (R13, R100). -/
def State.DropsJob (s : State) (j : Job) (t : State) : Prop :=
  s.Drops (Owner.isJob j.uid) (OutFrame.ofJob j.uid) (j.reorder.map JobFinished.buffer) t

/-- The sectors of some pulls are dropped (R13, R144). -/
def State.DropsPulls (s : State) (pulls : List Pull) (t : State) : Prop :=
  s.Drops (Owner.isPulls pulls) (OutFrame.ofPulls pulls) (pulls.flatMap fun p => p.reorder.filterMap PullFinished.buffer) t

/-! ### Frames of a DEEP request and of the supply warning (R104, R171, R172) -/

/-- The frame with which a job leaves at a DEEP request or at the supply warning: JOB-ENDED POWER, or its own where it is
ENDING already (R104). -/
def State.powerLeave (s : State) (tag : Tag) (j : Job) : OutFrame :=
  if j.state = .ending then j.leaveFrame tag
  else .notice (.jobEnded tag .power j.nextIn (j.nextOut - (s.withdrawn (OutFrame.ofJob j.uid)).length))

/-- These frames for the jobs that `leaves` names, in ascending tag order (R104). -/
def State.powerLeaves (s : State) (leaves : Job → Bool) : List OutFrame :=
  (List.finRange 32).flatMap fun tag => ((s.jobs.get tag).toList.filter leaves).map (s.powerLeave tag)

/-- The frames that a DEEP request withdraws: of the jobs that it ends and of the pulls that it drops (R8). -/
def State.endedByDeep (s : State) (f : OutFrame) : Bool :=
  (s.jobs.any fun o => o.any fun j => j.state != .ending && OutFrame.ofJob j.uid f) ||
    OutFrame.ofPulls s.pulls f

/-- The buffers that something but a lane or the frame being sent holds: frames that wait, reorder sets, the Lane Queue. -/
def State.buffersQueued (s : State) : List BufRef :=
  s.waitingFrames.filterMap OutFrame.buffer ++ s.laneQueue.map QueueEntry.buffer ++ s.reorderBuffers

/-! ### The re-evaluation of the waiting list (R93, R94) -/

/-- The re-check of one job of the waiting list, which leaves `t` and the frames: a job whose span meets the window stays; else
it leaves the list and becomes OPEN with its segments, or, in this order of the tests, is removed NO-KEY, LOCKED or SPLIT-LIMIT
(R94). -/
def State.Rechecked (s : State) (tag : Tag) (t : State) (frames : List OutFrame) : Prop :=
  ((∀ j, s.jobs.get tag = some j → j.state ≠ .waiting) → t = s ∧ frames = []) ∧
    ∀ j, s.jobs.get tag = some j → j.state = .waiting →
      let meets := fun p : Nat → Prop => ∃ x, j.covers x ∧ p x
      let unkeyed := fun x => (s.ranges.get (s.lookup x)).active = none
      let blocked := fun x => (s.ranges.get (s.lookup x)).blocks j.direction = true
      let segments := s.resolve j.first j.count
      let off : State := { s with waiting := s.waiting.filter fun u => u ≠ tag }
      let removed := fun reason =>
        t = { off with jobs := s.jobs.set tag none } ∧ frames = [OutFrame.notice (.jobEnded tag reason 0 0)]
      if s.meetsWindow j.first j.count then t = s ∧ frames = []
      else
        (meets unkeyed → removed .noKey) ∧ (¬ meets unkeyed → meets blocked → removed .locked) ∧
        (¬ meets unkeyed → ¬ meets blocked → 4 < segments.length → removed .splitLimit) ∧
        (¬ meets unkeyed → ¬ meets blocked → segments.length ≤ 4 →
          t = { off with jobs := s.jobs.set tag (some { j with
              state := .opened, segments := segments, age := 0, openTick := some s.ticks }) } ∧
            frames = [.notice (.jobAdmitted tag segments.length)])

/-- The re-checks of some jobs, one at a time in list order, and the frames in that order (R93). -/
inductive State.Rechecks : State → List Tag → State → List OutFrame → Prop
  | done (s : State) : State.Rechecks s [] s []
  | next {s u t : State} {tag : Tag} {rest : List Tag} {now later : List OutFrame} : s.Rechecked tag u now →
      State.Rechecks u rest t later → State.Rechecks s (tag :: rest) t (now ++ later)

/-! ### The issue step (R133, R134) -/

/-- The first LBA of the extent at or above the absolute issued cursor (R134, step 1). -/
def State.FirstToIssue (s : State) (w : Sweep) (x : Nat) : Prop :=
  s.cursorBase w.range + w.issued ≤ x ∧ x < s.capacity ∧ s.lookup x = w.range ∧
    ∀ y, s.cursorBase w.range + w.issued ≤ y → y < x → s.lookup y ≠ w.range

/-- An LBA lies in the span of an admitted job still in the table, OPEN or ENDING (R107). -/
def State.InAdmitted (s : State) (x : Nat) : Prop :=
  ∃ t j, s.jobs.get t = some j ∧ j.state ≠ .waiting ∧ j.covers x

/-- The end of the run from `x`: the least of `x` + 8, `x` + the room below the limit, the next boundary, where lookup leaves
the range or the drive ends, and the first LBA above `x` of an admitted job's span (R134, step 3). -/
structure State.RunEnds (s : State) (w : Sweep) (x last : Nat) : Prop where
  above : x < last
  eight : last ≤ x + 8
  room : last ≤ x + (w.limit - w.outstanding)
  drive : last ≤ s.capacity
  within : ∀ y, x ≤ y → y < last → s.lookup y = w.range
  clear : ∀ t j, s.jobs.get t = some j → j.state ≠ .waiting → x < j.first → last ≤ j.first
  least : last = x + 8 ∨ last = x + (w.limit - w.outstanding) ∨ last = s.capacity ∨ s.lookup last ≠ w.range ∨
    ∃ t j, s.jobs.get t = some j ∧ j.state ≠ .waiting ∧ j.first = last

/-- The pulls that an issue step forms one after another, and the state that it leaves: it stops with the window full, with
all LBAs issued, or blocked by an admitted job (R134). -/
inductive State.Issues : State → List Pull → State → Prop
  | full {s : State} {w : Sweep} : s.sweep = some w → w.limit ≤ w.outstanding → State.Issues s [] s
  | exhausted {s : State} {w : Sweep} : s.sweep = some w → w.outstanding < w.limit → (∀ x, ¬ s.FirstToIssue w x) →
      State.Issues s [] s
  | blocked {s : State} {w : Sweep} {x : Nat} : s.sweep = some w → w.outstanding < w.limit → s.FirstToIssue w x →
      s.InAdmitted x → State.Issues s [] { s with sweep := some { w with blocked := true } }
  | pull {s t : State} {w : Sweep} {x last : Nat} {pulls : List Pull} : s.sweep = some w → w.outstanding < w.limit →
      s.FirstToIssue w x → ¬ s.InAdmitted x → s.RunEnds w x last →
      State.Issues
        { s with
          sweep := some { w with
            pulls := w.pulls ++ [Pull.issue s.nextUid s.nextPull x (last - x)]
            issued := last - s.cursorBase w.range
            blocked := false }
          nextPull := s.nextPull + 1
          nextUid := s.nextUid + 1 } pulls t →
      State.Issues s (Pull.issue s.nextUid s.nextPull x (last - x) :: pulls) t

/-! ### Replies owed (R6) -/

def OutFrame.isReply : OutFrame → Bool
  | .reply .. => true
  | .jobSector .. | .sweepSector .. | .notice .. => false

/-- A slot whose drain owes a reply to PURGE-KEY (R74). -/
def KeySlot.owes (r : KeySlot) : Bool :=
  match r.state, r.drain with
  | .draining, some (.purge _) => true
  | _, _ => false

/-- The replies that wait in the transmit order. -/
def State.repliesWaiting (s : State) : Nat := s.order.countP OutFrame.isReply

/-- The replies that are owed and not yet decided: of the wrap unit's work, of purges, of END-JOB and of DEEP (R6). -/
def State.repliesOwed (s : State) : Nat :=
  s.work.length + s.slots.count KeySlot.owes +
    s.jobs.count (fun o => match o with | some j => j.owed.isSome | none => false) + s.deepPending.toList.length

end Sys2Proof.Machine
end

