-- ==== Sys2Proof/WellFormed.lean ====
section
/-! DEFINITION. Which command terms can be sent: the bounds that a frame has had to keep before its command is taken. -/

namespace Sys2Proof

/-- The most body bytes a frame may hold (R174). -/
def bodyLimit : Nat := 4217

/-- A request's body holds at least kind and number (R3, test 6), and at most what the frame limit allows. -/
def requestLengthOk (i : Instr) : Bool :=
  match i.bodyLength with
  | some len => 2 ≤ len && len ≤ bodyLimit
  | none => true

/-- Whether a command term stands for a command that can be taken:
a request has a body length that a frame can have; an unknown request names a kind that the part does not define (R5); a
discarded frame holds at least one byte and fails a test of R3 (R1, R3); a sector-in's payload fits a frame (R174). -/
def Instr.wellFormed (i : Instr) : Bool :=
  requestLengthOk i &&
  match i with
  | .unknownRequest kind _ => (requestOf kind).isNone
  | .frameDiscarded bytes => bytes ≠ [] && (frameFault bytes).isSome
  | .jobSectorIn _ _ payload => payload.length + 2 ≤ bodyLimit
  | .sweepSectorIn _ _ _ payload => payload.length + 4 ≤ bodyLimit
  | _ => true

end Sys2Proof
end

