-- ==== Sys2Proof/Certificates/Slice0/Obligations.lean ====
section
/-! DEFINITION. The statements for the provers. -/

open Sys2Proof Sys2Proof.Machine

/-! ### The machine as a whole -/

/-- A step takes the command at the front of the queue and does it on the state with the queue's rest. -/
def Obligations.StepRunsFrontCommand : Prop :=
  ∀ (c : Instr) (rest : List Instr) (s : State),
    step { s with pending := c :: rest } = exec c { s with pending := rest }

/-- Whatever the state, every command is done: it answers a next state, never a fault or a refusal. -/
def Parts.EveryCommandIsDone : Prop := NeverStops

/-- No command touches the queue of the commands that wait. -/
def Parts.CommandsKeepTheQueue : Prop := ∀ (c : Instr) (s t : State), Answers c s t → t.pending = s.pending

/-- Whatever the state, every command is done, with a next state and never a fault or a refusal; and none touches the queue of
the commands that wait. -/
def Obligations.EveryCommandIsDoneAndKeepsTheQueue : Prop :=
  Parts.EveryCommandIsDone ∧ Parts.CommandsKeepTheQueue

/-- After a power-on reset has ended: the link holds STARTED alone and is idle, all buffers are free, profiles are 512, 0,
PASS and streams 0, 2, no provisioning record, ranges UNDEFINED and unlocked, authorities NOT-ENROLLED at 0, slots EMPTY, no
key work, the noise source WARMING at 0, no job, next tag 0, the lanes idle, the sweep IDLE with next pull 0, the counter 0,
interval index 2, ACTIVE with no mark, the hold clear, cause POWER. -/
def Parts.ResetLeavesTheInitialState : Prop :=
  let s := State.reset
  s.inReset = false ∧ s.order = [.notice (.started .power)] ∧ s.sending = none ∧
    (∀ i, s.jobPool.get i = none) ∧ (∀ i, s.sweepPool.get i = none) ∧
    (∀ p, s.profiles.get p = ⟨.b512, .m0, .pass⟩) ∧ (∀ st, s.streams.get st = ⟨0, 2⟩) ∧ s.prov = none ∧
    (∀ r, s.ranges.get r = ⟨none, false, false, none, none⟩) ∧
    (∀ a, s.auths.get a = ⟨.notEnrolled, none, none, none, 0⟩) ∧ (∀ k, s.slots.get k = ⟨.empty, none, none, 0, none⟩) ∧
    s.workQueue = [] ∧ s.running = none ∧ s.noise = .warming ∧ s.warmCount = 0 ∧ (∀ t, s.jobs.get t = none) ∧
    s.waiting = [] ∧ s.nextTag = 0 ∧ s.laneQueue = [] ∧ (∀ l, s.lanes.get l = .idle) ∧ s.sweep = none ∧
    s.nextPull = 0 ∧ s.ticks = 0 ∧ s.interval = 2 ∧ s.power = .active ∧ s.deepPending = none ∧ s.hold = false ∧
    s.cause = ⟨.power, true, false, false⟩

/-- The invariants of Safety.lean hold at `State.reset`. -/
def Obligations.InvariantsHoldAtReset : Prop :=
  State.reset.heldWithoutLanes ∧ State.reset.PowerSettled ∧ State.reset.sendingHead ∧ State.reset.agesBounded ∧
    State.reset.waitingListed ∧ State.reset.arrivalsRise ∧ State.reset.JobsSettled ∧ State.reset.AuthoritiesSettled ∧
    State.reset.KeysSettled ∧ State.reset.SweepSettled ∧ State.reset.DeepSettled ∧ State.reset.SegmentsSettled ∧
    State.reset.SectorsSettled

/-! ### Resets -/

/-- A power-on reset, taken in any state, empties the link and holds the part; at its end the part is as `State.reset`, but
for what the model keeps of its own. That it acts on a part that a reset already holds is the model's choice (log entry
12). -/
def Parts.PowerOnResetGivesTheInitialState : Prop :=
  ∀ s : State, ∃ t, Answers .powerOnReset s t ∧ t.inReset = true ∧ t.order = [] ∧ t.sending = none ∧
    Answers .resetEnd t
      { State.reset with
        draws := s.draws, verifierLog := s.verifierLog, keyLog := s.keyLog, nextUid := s.nextUid, pending := s.pending }

/-- What R62 makes of an authority record at a line reset: state and failure counter; the cause record keeps its flags and
gains LINE; at its end the rest is as `State.reset`. That it acts so on a part that a reset already holds is the model's choice
(log entry 12). -/
def Parts.LineResetKeepsBarsAndCounters : Prop :=
  ∀ s : State, s.AuthoritiesSettled → ∃ t, Answers .lineReset s t ∧ t.inReset = true ∧ t.order = [] ∧ t.sending = none ∧
    (∀ a, let r := s.auths.get a
      let u := t.auths.get a
      u.blob = none ∧ u.key = none ∧ u.op = none ∧
        (r.op = some .check → u.failures = r.failures + 1 ∧
          u.state = if r.failures + 1 = 5 then .barred else .notEnrolled) ∧
        (r.op ≠ some .check → u.failures = r.failures ∧ u.state = if r.state = .barred then .barred else .notEnrolled)) ∧
    t.cause = { s.cause with last := .line, line := true } ∧
    Answers .resetEnd t
      { State.reset with
        order := [.notice (.started .line)], auths := t.auths, cause := t.cause, draws := s.draws,
        verifierLog := s.verifierLog, keyLog := s.keyLog, nextUid := s.nextUid, pending := s.pending }

/-- What `State.reset` holds; a power-on reset and its end give it; a line reset and its end give it but for the authorities
(R62), the cause record and the cause that STARTED names. What a reset does to a part that another already holds is the
model's choice (log entry 12). -/
def Obligations.HardResetsGiveTheInitialState : Prop :=
  Parts.ResetLeavesTheInitialState ∧ Parts.PowerOnResetGivesTheInitialState ∧ Parts.LineResetKeepsBarsAndCounters

/-- A RESET request, in any power state: jobs, waiting list, Lane Queue, pulls and key work are gone, slots EMPTY, all ranges
relocked, OPEN authorities SEALED and work on them cut off, the mark removed; of the buffers only those IN-LANE and that of
the frame being sent stay taken; provisioning record, profiles, streams, noise source, hold, counter, interval index, next
tag, next pull number and OFFLINE lanes are kept; the frames follow what was waiting in the order of R168. That the buffer of
a withdrawn LANE-FAULT sector-out is among those freed is the model's choice (log entry 25). -/
def Obligations.ResetRequestResetsTheLink : Prop :=
  ∀ (num : Byte) (s : State), s.inReset = false → ∃ t, Answers (.reset num 2) s t ∧
    (∀ tag, t.jobs.get tag = none) ∧ t.waiting = [] ∧ t.laneQueue = [] ∧ t.sweep = none ∧ t.workQueue = [] ∧
    t.running = none ∧ t.deepPending = none ∧ (∀ k, t.slots.get k = KeySlot.initial) ∧
    s.Relocked t ∧ (∀ a, (s.auths.get a).CutAndSealed (t.auths.get a)) ∧
    (∀ b, (∀ buf, s.buffer b = some buf → buf.stage ≠ .inLane) → (∀ f, s.begun = some f → f.buffer ≠ some b) →
      t.buffer b = none) ∧
    (∀ b buf, s.buffer b = some buf → (∀ f ∈ s.waitingFrames, f.buffer ≠ some b) →
      buf.stage = .inLane ∨ (∃ f, s.begun = some f ∧ f.buffer = some b) → t.buffer b = some buf) ∧
    (∀ l, (t.lanes.get l).state = (s.lanes.get l).state) ∧
    t.power = .active ∧ t.prov = s.prov ∧ t.profiles = s.profiles ∧ t.streams = s.streams ∧ t.noise = s.wake.noise ∧
    t.hold = s.hold ∧ t.ticks = s.ticks ∧ t.interval = s.interval ∧ t.nextTag = s.nextTag ∧ t.nextPull = s.nextPull ∧
    t.cause = { s.cause with last := .link, link := true } ∧ t.sending = s.sending ∧
    t.order = s.begun.toList ++ (s.waitingFrames.filter fun f => !f.isSector) ++
      ([replyTo .reset num .ok .none] ++ s.owedReplies.map (Owed.frame .reset t) ++ s.deepReply .reset ++
        s.owedEndReplies ++ s.finalCheckpoint ++ [.notice (.started .link)])

/-! ### Frames on the link -/

/-- In DOZE and in DEEP the end of any frame first wakes the part: ACTIVE, the noise source WARMING at 0; then the frame is
handled as in ACTIVE. -/
def Obligations.FramesAreHandledAfterTheWake : Prop :=
  ∀ (c : Instr) (s : State), c.isFrame → c.wellFormed = true → s.inReset = false → s.power ≠ .active →
    exec c s = exec c { s with power := .active, noise := .warming, warmCount := 0 }

/-- A request of a defined kind whose body length is not its kind's is refused BAD-FIELD, and a request of an undefined kind
UNKNOWN-REQUEST with kind and number as received; neither has another effect. -/
def Parts.UntakenRequestsOnlyReply : Prop :=
  (∀ (c : Instr) (r : Request) (num : Byte) (len : Nat) (s : State), c.request = some r → c.requestNumber = some num →
    c.bodyLength = some len → len ≠ r.bodyLength → s.inReset = false → OnlyReplies c s r num .badField .none) ∧
  ∀ (kind num : Byte) (s : State), (∀ r : Request, r.code ≠ kind) → s.inReset = false →
    Gives (.unknownRequest kind num) s s.frameEnded [.reply kind num .unknownRequest .none]

/-- While the part is entering DEEP every request but RESET is refused POWER, with no body and no other effect. -/
def Parts.EnteringDeepRefusesRequests : Prop :=
  ∀ (c : Instr) (r : Request) (num : Byte) (s : State), c.rightLength r num → r ≠ .reset → s.inReset = false →
    s.deepPending.isSome = true → OnlyReplies c s r num .power .none

/-- While the provisioning record is absent every profile, stream, range, job and sweep request is refused
NOT-PROVISIONED. -/
def Parts.UnprovisionedRequestsAreRefused : Prop :=
  ∀ (c : Instr) (r : Request) (num : Byte) (s : State), c.rightLength r num → r.needsProvisioning = true →
    s.takesRequests → s.prov = none → OnlyReplies c s r num .notProvisioned .none

/-- A request that names an authority above 3, a slot above 19 or a tag above 31 is refused BAD-FIELD, with no body and no other
effect: the authority requests, those of the Key Store, and END-JOB and QUERY-JOB. -/
def Parts.NumbersAreTested : Prop :=
  ∀ (num number other : Byte) (cred : Credential) (verifier : VerifierBlob) (blob : KeyBlob) (s : State), s.takesRequests →
    let refused := fun (c : Instr) (r : Request) => OnlyReplies c s r num .badField .none
    (3 < number.toNat → refused (.enrol num 51 number verifier) .enrol ∧
      refused (.createAuthority num 35 number cred) .createAuthority ∧
      refused (.unlockAuthority num 35 number cred) .unlockAuthority ∧ refused (.sealAuthority num 3 number) .sealAuthority ∧
      refused (.setCredential num 35 number cred) .setCredential ∧ refused (.loadKey num 84 other number blob) .loadKey ∧
      refused (.generateKey num 4 other number) .generateKey) ∧
    (19 < number.toNat → refused (.loadKey num 84 number other blob) .loadKey ∧
      refused (.generateKey num 4 number other) .generateKey ∧ refused (.purgeKey num 3 number) .purgeKey ∧
      refused (.querySlot num 3 number) .querySlot) ∧
    (31 < number.toNat → s.prov ≠ none → refused (.endJob num 3 number) .endJob ∧
      refused (.queryJob num 3 number) .queryJob)

/-- While entering DEEP every request but RESET is refused POWER; without the provisioning record every profile, stream, range,
job and sweep request NOT-PROVISIONED; and numbers of no authority, slot or tag BAD-FIELD. -/
def Obligations.FirstTestsRefuse : Prop :=
  Parts.EnteringDeepRefusesRequests ∧ Parts.UnprovisionedRequestsAreRefused ∧ Parts.NumbersAreTested

/-- A received frame that fails a test of R3 does nothing, the wake apart, but raise LINK-ERROR with the reason and the
number of its bytes. -/
def Parts.DiscardedFramesRaiseLinkError : Prop :=
  ∀ (bytes : List Byte) (reason : LinkFault) (s : State), bytes ≠ [] → frameFault bytes = some reason →
    s.inReset = false →
    Gives (.frameDiscarded bytes) s s.frameEnded [.notice (.linkError reason (min bytes.length 65535))]

/-- A request of a wrong length or an undefined kind, and a frame that fails a test of R3, have no effect but the wake and the
one frame that answers them. -/
def Obligations.UntakenFramesOnlyReply : Prop :=
  Parts.UntakenRequestsOnlyReply ∧ Parts.DiscardedFramesRaiseLinkError

/-- The receiver reads back every command that is a frame from the frame's bytes: no bit of kind, number or field is lost,
for a request with the body length of its kind. -/
def Obligations.ReceivingInvertsSending : Prop :=
  ∀ (c : Instr) (bytes : List Byte), c.frame = some bytes → c.wellFormed = true →
    (∀ r len, c.request = some r → c.bodyLength = some len → len = r.bodyLength) → receive bytes = some c

/-- Every frame the part sends is whole: its kind code is one that travels to the controller, L is the number of its body
bytes, and its last four bytes are the check word of those before them. -/
def Parts.SentFramesAreWhole : Prop :=
  ∀ (f : OutFrame) (payload : List Byte), (f.bodyBytes payload).length < 65536 →
    let b := f.bytes payload
    b.headD 0 ∈ [0x81, 0x82, 0x83, 0x84] ∧ leNat ((b.drop 1).take 2) = (f.bodyBytes payload).length ∧
      b.length = (f.bodyBytes payload).length + 7 ∧ (b.drop 3).take ((f.bodyBytes payload).length) = f.bodyBytes payload ∧
      b.drop (b.length - 4) = leOf 4 (checkWord (b.take (b.length - 4)))

/-- The bodies of the replies have the lengths of 11.4. -/
def Parts.ReplyBodiesHaveTheirLengths : Prop :=
  (∀ p : Provisioning, p.layout.length = 13) ∧ (∀ b : StatusBody, b.layout.length = 79) ∧
    (∀ r : RangeReport, r.layout.length = 25) ∧ (∀ r : AuthorityReport, r.layout.length = 5) ∧
    (∀ r : SlotReport, r.layout.length = 10) ∧ (∀ r : JobReport, r.layout.length = 52) ∧
    (∀ r : SweepReport, r.layout.length = 28) ∧ (∀ i t, (ReplyBody.interval i t).layout.length = 5) ∧
    (∀ h l, (ReplyBody.hold h l).layout.length = 5) ∧ (∀ f, (ReplyBody.profile f).layout.length = 4) ∧
    (∀ r, (ReplyBody.stream r).layout.length = 2) ∧ (∀ r b, (ReplyBody.authority r (some b)).layout.length = 53) ∧
    (∀ r b, (ReplyBody.slot r (some b)).layout.length = 90) ∧
    (∀ t r n d, (ReplyBody.ended t r n d).layout.length = 6) ∧ (∀ t d, (ReplyBody.opened t d).layout.length = 2) ∧
    (∀ r, (ReplyBody.failedRange r).layout.length = 1) ∧ ∀ n, (ReplyBody.segmentCount n).layout.length = 2

/-- Every frame the part sends is laid out as R174 gives, and reply bodies have the lengths of 11.4. -/
def Obligations.SentFramesAreWholeAndOfLength : Prop :=
  Parts.SentFramesAreWhole ∧ Parts.ReplyBodiesHaveTheirLengths

/-! ### Requests of Power and Hold Control and of the Timebase -/

/-- PROVISION: a record already held is answered ALREADY-SET; fields that name no legal record BAD-FIELD; else the record is
stored and range 0's locks take its lock-on-reset flags. -/
def Obligations.ProvisionStoresTheRecordOnce : Prop :=
  ∀ (num : Byte) (capacity : Lba64) (dataSize : Half) (owner lorRead lorWrite : Byte) (s : State), s.takesRequests →
    let c := Instr.provision num 15 capacity dataSize owner lorRead lorWrite
    let spells := fun p : Provisioning => 1 ≤ p.capacity ∧ p.capacity ≤ 2 ^ 48 ∧ capacity.toNat = p.capacity ∧
      dataSize.toNat = p.dataSize.bytes ∧ owner.toNat = p.owner.val ∧ lorRead = flagByte p.lorRead ∧
      lorWrite = flagByte p.lorWrite
    (∀ held, s.prov = some held → OnlyReplies c s .provision num .alreadySet (.provisioning held)) ∧
      (s.prov = none → (∀ p, ¬ spells p) → OnlyReplies c s .provision num .badField .none) ∧
      ∀ p, s.prov = none → spells p →
        Gives c s
          { s.frameEnded with
            prov := some p
            ranges := s.ranges.set 0 { s.ranges.get 0 with readLock := p.lorRead, writeLock := p.lorWrite } }
          [replyTo .provision num .ok (.provisioning p)]

/-- STATUS: the reply's body gives the part as it stands in ACTIVE before the request; then the three flags of the cause
record are cleared, the last cause kept. -/
def Parts.StatusReportsThenClearsTheFlags : Prop :=
  ∀ (num : Byte) (s : State), s.takesRequests →
    Gives (.status num 2) s { s.frameEnded with cause := ⟨s.cause.last, false, false, false⟩ }
      [replyTo .status num .ok (.status
        { cause := s.cause, power := .active, hold := s.hold, lanes := s.lanes.map Lane.state, ticks := s.ticks,
          interval := s.interval, prov := s.prov, noise := s.wake.noise, workOps := s.work.length,
          jobs := s.jobs.count Option.isSome, auths := Table.ofFn s.authorityReport, sweep := s.sweepReport })]

/-- SET-INTERVAL: the index becomes the value given, or 3 when that is above 3; the reply gives the index stored and the
counter. -/
def Parts.SetIntervalClampsToThree : Prop :=
  ∀ (num index : Byte) (i : Fin 4) (s : State), s.takesRequests → i.val = min index.toNat 3 →
    Gives (.setInterval num 3 index) s { s.frameEnded with interval := i }
      [replyTo .setInterval num .ok (.interval i s.ticks)]

/-- STATUS reports and then clears the flags; SET-INTERVAL clamps to 3. -/
def Obligations.StatusAndIntervalReplies : Prop :=
  Parts.StatusReportsThenClearsTheFlags ∧ Parts.SetIntervalClampsToThree

/-- DOZE: with no job, the sweep IDLE or PAUSED, no key work, no slot DRAINING and no lane BUSY the part becomes DOZE and the
noise source STOPPED, with NOISE-HEALTH behind the reply where it was HEALTHY; in every other case it is refused BUSY and
changes nothing; while the part is entering DEEP it is refused POWER. -/
def Obligations.DozeNeedsAQuietPart : Prop :=
  ∀ (num : Byte) (s : State), s.inReset = false →
    let quiet := (∀ t, s.jobs.get t = none) ∧ (∀ w, s.sweep = some w → w.state = .paused) ∧ s.workQueue = [] ∧
      s.running = none ∧ (∀ k, (s.slots.get k).state ≠ .draining) ∧ ∀ l w, s.lanes.get l ≠ .busy w
    (s.deepPending ≠ none → OnlyReplies (.doze num 2) s .doze num .power .none) ∧
      (s.deepPending = none → ¬ quiet → OnlyReplies (.doze num 2) s .doze num .busy .none) ∧
      (s.deepPending = none → quiet →
        Gives (.doze num 2) s { s.frameEnded with power := .doze, noise := .stopped, warmCount := 0 }
          (replyTo .doze num .ok .none :: if s.wake.noise = .healthy then [.notice (.noiseHealth .stopped)] else []))

/-- DEEP with no lane BUSY: the part is in DEEP in the same event, holding no job, sweep or key, every range relocked, the
counter, hold and provisioning record kept. Of the authorities a check cut off counts as a bad one (BARRED at 5), a creation cut
off leaves NOT-ENROLLED, an OPEN one is SEALED with its blob and counter, and the rest stay. The waiting sector-outs of the jobs
ended and of the pulls dropped are withdrawn; the frames that join are the POWER replies of the Key Store, the JOB-ENDED POWER
of every job in ascending tag order, the FINAL checkpoint, the reply OK, NOISE-HEALTH where the source was HEALTHY, and
POWER-STATE. -/
def Parts.DeepEntersAtOnceWithIdleLanes : Prop :=
  ∀ (num : Byte) (s : State), s.takesRequests → s.KeysSettled → s.AuthoritiesSettled → (∀ l w, s.lanes.get l ≠ .busy w) →
    ∃ t jobs, Answers (.deep num 2) s t ∧ t.power = .deep ∧ t.deepPending = none ∧ t.noise = .stopped ∧ t.Bare ∧
      s.Relocked t ∧ (∀ a, (s.auths.get a).CutAndSealed (t.auths.get a)) ∧ t.workQueue = [] ∧ t.running = none ∧
      t.ticks = s.ticks ∧ t.hold = s.hold ∧ t.prov = s.prov ∧ (s.JobsSettled → jobs = s.powerLeaves fun _ => true) ∧
      t.order = s.begun.toList ++ (s.waitingFrames.filter fun f => !s.endedByDeep f) ++
        s.owedReplies.map (Owed.frame .power t) ++ jobs ++ s.finalCheckpoint ++ [replyTo .deep num .ok .none] ++
        (if s.wake.noise = .healthy then [.notice (.noiseHealth .stopped)] else []) ++
        [.notice (.powerState .deep .request)]

/-- DEEP while a lane is BUSY: the part stays ACTIVE with the mark; all key work is ended and answered POWER first, jobs are
ENDING or gone, the sweep keeps its state and has no pull; the lanes and the noise source go on; checks and creations are cut
off, and the other authorities, OPEN ones too, stay until the entry. Behind the POWER replies stand
the JOB-ENDED POWER of the jobs with no sector in a lane, in ascending tag order, and the FINAL checkpoint. -/
def Parts.DeepWaitsForBusyLanes : Prop :=
  ∀ (num : Byte) (s : State) (l : LaneNo) (w : LaneWork), s.takesRequests → s.lanes.get l = .busy w →
    ∃ t rest jobs, Answers (.deep num 2) s t ∧ t.power = .active ∧ t.deepPending = some num ∧ t.WindingDown ∧
      (∀ m, (t.lanes.get m).state = (s.lanes.get m).state) ∧ t.noise = s.wake.noise ∧ t.hold = s.hold ∧
      t.sweep.map Sweep.state = s.sweep.map Sweep.state ∧ (∀ a, (s.auths.get a).CutOff (t.auths.get a)) ∧
      (∀ a, (s.auths.get a).state = .opened → t.auths.get a = s.auths.get a) ∧
      t.order.filter OutFrame.isReply = s.order.filter OutFrame.isReply ++
        s.owedReplies.map (Owed.frame .power t) ++ rest ∧
      (s.JobsSettled → jobs = s.powerLeaves fun j => !s.jobInLane j.uid) ∧
      t.order = s.begun.toList ++ (s.waitingFrames.filter fun f => !s.endedByDeep f) ++
        s.owedReplies.map (Owed.frame .power t) ++ jobs ++ s.finalCheckpoint

/-- DEEP enters DEEP in its own event with no lane BUSY, and winds the part down and waits otherwise. -/
def Obligations.DeepRequestsEnterOrWait : Prop :=
  Parts.DeepEntersAtOnceWithIdleLanes ∧ Parts.DeepWaitsForBusyLanes

/-- RELEASE-HOLD: NO-LANE with no lane in service; OK and nothing else with the hold clear; with the hold set it clears it,
and the waiting list's re-evaluation and the issue step follow the reply. -/
def Obligations.ReleaseHoldNeedsALane : Prop :=
  ∀ (num : Byte) (s : State), s.takesRequests →
    ((∀ l, s.lanes.get l = .offline) → OnlyReplies (.releaseHold num 2) s .releaseHold num .noLane s.holdBody) ∧
      ((∃ l, s.lanes.get l ≠ .offline) → s.hold = false →
        OnlyReplies (.releaseHold num 2) s .releaseHold num .ok (.hold false s.laneStates)) ∧
      ((∃ l, s.lanes.get l ≠ .offline) → s.hold = true →
        let released : State := { s.frameEnded with hold := false }
        let waited := released.reevaluate
        let issued := waited.1.issueStep
        Gives (.releaseHold num 2) s issued.1
          (replyTo .releaseHold num .ok (.hold false s.laneStates) :: (waited.2 ++ issued.2)))

/-! ### Requests of the Profile Map -/

/-- SET-PROFILE's tests 3 to 8 in order, and the record stored when all pass. -/
def Obligations.SetProfileTestsInOrder : Prop :=
  ∀ (num profile metaSize handling : Byte) (unitSize : Half) (s : State) (prov : Provisioning), s.takesRequests →
    s.prov = some prov →
    let c := Instr.setProfile num 7 profile unitSize metaSize handling
    let spells := fun (p : ProfileNo) (f : Format) => profile.toNat = p.val ∧ unitSize.toNat = f.unitSize.bytes ∧
      metaSize.toNat = f.metaSize.bytes ∧ handling = f.handling.code ∧ f.unitSize.bytes ≤ prov.dataSize.bytes ∧
      (f.handling = .pass ∨ f.metaSize = .m64)
    ((∀ p f, ¬ spells p f) → OnlyReplies c s .setProfile num .badField .none) ∧
      ∀ p f, spells p f →
        ((∃ t j, s.jobs.get t = some j ∧ j.profile = p) →
          OnlyReplies c s .setProfile num .inUse (.profile (s.profiles.get p))) ∧
        ((∀ t j, s.jobs.get t = some j → j.profile ≠ p) → (∃ w, s.sweep = some w ∧ w.profile = p) →
          OnlyReplies c s .setProfile num .sweeping (.profile (s.profiles.get p))) ∧
        ((∀ t j, s.jobs.get t = some j → j.profile ≠ p) → (∀ w, s.sweep = some w → w.profile ≠ p) →
          Gives c s { s.frameEnded with profiles := s.profiles.set p f } [replyTo .setProfile num .ok (.profile f)])

/-- SET-STREAM, whole: its four tests in order, the first that fails deciding the reply, and the record it stores, a class
above 3 as 3; neither the profile named nor the sweep is consulted. -/
def Obligations.SetStreamDecides : Prop :=
  ∀ (num stream profile cls : Byte) (s : State), s.inReset = false →
    let c := Instr.setStream num 5 stream profile cls
    (s.deepPending ≠ none → OnlyReplies c s .setStream num .power .none) ∧
      (s.deepPending = none → s.prov = none → OnlyReplies c s .setStream num .notProvisioned .none) ∧
      (s.deepPending = none → s.prov ≠ none → 7 < stream.toNat ∨ 7 < profile.toNat →
        OnlyReplies c s .setStream num .badField .none) ∧
      ∀ (st : StreamNo) (p : ProfileNo) (k : ClassNo), s.deepPending = none → s.prov ≠ none → stream.toNat = st.val →
        profile.toNat = p.val → k.val = min cls.toNat 3 →
        ((∃ t j, s.jobs.get t = some j ∧ j.stream = st) →
          OnlyReplies c s .setStream num .inUse (.stream (s.streams.get st))) ∧
        ((∀ t j, s.jobs.get t = some j → j.stream ≠ st) →
          Gives c s { s.frameEnded with streams := s.streams.set st ⟨p, k⟩ } [replyTo .setStream num .ok (.stream ⟨p, k⟩)])

/-! ### Requests of the Range Table -/

/-- An accepted DEFINE-RANGE with a length above 0: the range becomes DEFINED afresh, its locks at its lock-on-reset flags
and its active slot none; with length 0 a DEFINED range becomes UNDEFINED and an UNDEFINED one stays. -/
def Parts.DefineRangeDefinesAfresh : Prop :=
  ∀ (num range owner lorRead lorWrite : Byte) (base length : Lba48) (r : RangeNo) (s : State) (prov : Provisioning),
    s.takesRequests → s.prov = some prov → range.toNat = r.val → r ≠ 0 → (s.auths.get 0).state = .opened →
    (∀ w, s.sweep = some w → w.range ≠ r ∧ w.range ≠ 0) →
    (∀ t j d x, s.jobs.get t = some j → j.state ≠ .ending → (s.ranges.get r).definition = some d → d.covers x →
      ¬ j.covers x) →
    let c := Instr.defineRange num 18 range base length owner lorRead lorWrite
    let gives := fun record : RangeRec =>
      let t : State := { s.frameEnded with ranges := s.ranges.set r record }
      Gives c s t [replyTo .defineRange num .ok (.range (t.rangeReport r))]
    (∀ d : RangeDef, 0 < d.length → base.toNat = d.base → length.toNat = d.length → owner.toNat = d.owner.val →
      lorRead = flagByte d.lorRead → lorWrite = flagByte d.lorWrite → (s.auths.get d.owner).state ≠ .barred →
      d.base + d.length ≤ prov.capacity →
      (∀ q e x, q ≠ r → (s.ranges.get q).definition = some e → d.covers x → ¬ e.covers x) →
      (∀ t j x, s.jobs.get t = some j → j.state ≠ .ending → d.covers x → ¬ j.covers x) →
      gives { s.ranges.get r with definition := some d, readLock := d.lorRead, writeLock := d.lorWrite, active := none }) ∧
    (length = 0 → (s.ranges.get r).definition.isSome = true →
      gives { s.ranges.get r with definition := none, readLock := false, writeLock := false, active := none }) ∧
    (length = 0 → (s.ranges.get r).definition = none → gives (s.ranges.get r))

/-- DEFINE-RANGE's tests 3 to 9 in order: BAD-FIELD without a body, and the other refusals with the range report. A length of 0
names no new extent, and leaves owner and flags untested. -/
def Parts.DefineRangeTestsInOrder : Prop :=
  ∀ (num range owner lorRead lorWrite : Byte) (base length : Lba48) (s : State) (prov : Provisioning), s.takesRequests →
    s.prov = some prov →
    let c := Instr.defineRange num 18 range base length owner lorRead lorWrite
    (range = 0 ∨ 16 < range.toNat ∨ length ≠ 0 ∧ (3 < owner.toNat ∨ 1 < lorRead.toNat ∨ 1 < lorWrite.toNat) →
      OnlyReplies c s .defineRange num .badField .none) ∧
    ∀ (r : RangeNo) (d : Option RangeDef), range.toNat = r.val → r ≠ 0 → (d = none → length = 0) →
      (∀ e, d = some e → 0 < e.length ∧ base.toNat = e.base ∧ length.toNat = e.length ∧ owner.toNat = e.owner.val ∧
        lorRead = flagByte e.lorRead ∧ lorWrite = flagByte e.lorWrite) →
      FirstFails (fun code => OnlyReplies c s .defineRange num code (.range (s.rangeReport r)))
        [((s.auths.get 0).state = .barred ∨ (∃ e, d = some e ∧ (s.auths.get e.owner).state = .barred), .barred),
          ((s.auths.get 0).state ≠ .opened, .notAuthorised),
          (∃ e, d = some e ∧ prov.capacity < e.base + e.length, .beyondEnd),
          (∃ e q o x, d = some e ∧ q ≠ r ∧ (s.ranges.get q).definition = some o ∧ e.covers x ∧ o.covers x, .overlap),
          (∃ t j e x, s.jobs.get t = some j ∧ j.state ≠ .ending ∧ j.covers x ∧ e.covers x ∧
            (d = some e ∨ (s.ranges.get r).definition = some e), .inUse),
          (∃ w, s.sweep = some w ∧ (w.range = r ∨ w.range = 0), .sweeping)]

/-- DEFINE-RANGE accepted, and its refusals in order. -/
def Obligations.DefineRangeDefinesAfresh : Prop :=
  Parts.DefineRangeDefinesAfresh ∧ Parts.DefineRangeTestsInOrder

/-- An accepted BIND-KEY sets the active slot, or makes it none; UNLOCK-RANGE clears the locks selected; both for the range's
OPEN owner. -/
def Parts.OwnersBindAndUnlock : Prop :=
  ∀ (num range : Byte) (r : RangeNo) (owner : AuthNo) (s : State), s.takesRequests → s.prov ≠ none →
    range.toNat = r.val → s.rangeOwner r = some owner → (s.auths.get owner).state = .opened →
    (∀ (slot : Byte) (k : Option SlotNo), slot = (match k with | some n => natByte n.val | none => 0xFF) →
      (∀ t j g, s.jobs.get t = some j → j.state = .opened → g ∈ j.segments → g.range ≠ r) →
      (∀ w, s.sweep = some w → w.range ≠ r) →
      (∀ n, k = some n → (s.slots.get n).state = .ready ∧ (s.slots.get n).auth = some owner) →
      let t : State := { s.frameEnded with ranges := s.ranges.set r { s.ranges.get r with active := k } }
      Gives (.bindKey num 4 range slot) s t [replyTo .bindKey num .ok (.range (t.rangeReport r))]) ∧
    ∀ rs ws : Bool, (rs || ws) = true →
      let x := s.ranges.get r
      let t : State := { s.frameEnded with
        ranges := s.ranges.set r { x with readLock := x.readLock && !rs, writeLock := x.writeLock && !ws } }
      Gives (.unlockRange num 5 range (flagByte rs) (flagByte ws)) s t
        [replyTo .unlockRange num .ok (.range (t.rangeReport r))]

/-- BIND-KEY's tests 3 to 11 in order: BAD-FIELD without a body for an illegal field or an UNDEFINED range, and the other
refusals with the range report. -/
def Parts.BindKeyTestsInOrder : Prop :=
  ∀ (num range slot : Byte) (s : State), s.takesRequests → s.prov ≠ none →
    let c := Instr.bindKey num 4 range slot
    (16 < range.toNat ∨ 19 < slot.toNat ∧ slot ≠ 0xFF ∨
        (∃ r : RangeNo, range.toNat = r.val ∧ r ≠ 0 ∧ (s.ranges.get r).definition = none) →
      OnlyReplies c s .bindKey num .badField .none) ∧
    ∀ (r : RangeNo) (owner : AuthNo) (k : Option SlotNo), range.toNat = r.val → s.rangeOwner r = some owner →
      slot = (match k with | some n => natByte n.val | none => 0xFF) →
      FirstFails (fun code => OnlyReplies c s .bindKey num code (.range (s.rangeReport r)))
        [((s.auths.get owner).state = .barred, .barred),
          ((s.auths.get owner).state ≠ .opened, .notAuthorised),
          (∃ t j g, s.jobs.get t = some j ∧ j.state = .opened ∧ g ∈ j.segments ∧ g.range = r, .inUse),
          (∃ w, s.sweep = some w ∧ w.range = r, .sweeping),
          (∃ n, k = some n ∧ (s.slots.get n).state = .empty, .slotEmpty),
          (∃ n, k = some n ∧ (s.slots.get n).state ≠ .ready, .slotBusy),
          (∃ n, k = some n ∧ (s.slots.get n).auth ≠ some owner, .notAuthorised)]

/-- The fields that LOCK-RANGE and UNLOCK-RANGE refuse BAD-FIELD, without a body, at tests 3 and 4: a range above 16 or
UNDEFINED, a select above 1, and two selects of 0. -/
def Parts.LockFieldsAreTested : Prop :=
  ∀ (num range readSelect writeSelect : Byte) (s : State), s.takesRequests → s.prov ≠ none →
    16 < range.toNat ∨ 1 < readSelect.toNat ∨ 1 < writeSelect.toNat ∨ readSelect = 0 ∧ writeSelect = 0 ∨
        (∃ r : RangeNo, range.toNat = r.val ∧ r ≠ 0 ∧ (s.ranges.get r).definition = none) →
    OnlyReplies (.lockRange num 5 range readSelect writeSelect) s .lockRange num .badField .none ∧
      OnlyReplies (.unlockRange num 5 range readSelect writeSelect) s .unlockRange num .badField .none

/-- UNLOCK-RANGE's tests 5 and 6 in order, the refusals with the range report. -/
def Parts.UnlockRangeNeedsItsOwner : Prop :=
  ∀ (num range : Byte) (rs ws : Bool) (r : RangeNo) (owner : AuthNo) (s : State), s.takesRequests → s.prov ≠ none →
    range.toNat = r.val → s.rangeOwner r = some owner → (rs || ws) = true →
    FirstFails
      (fun code => OnlyReplies (.unlockRange num 5 range (flagByte rs) (flagByte ws)) s .unlockRange num code
        (.range (s.rangeReport r)))
      [((s.auths.get owner).state = .barred, .barred), ((s.auths.get owner).state ≠ .opened, .notAuthorised)]

/-- BIND-KEY and UNLOCK-RANGE accepted, and their refusals in order; the fields that UNLOCK-RANGE refuses stand with
LOCK-RANGE. -/
def Obligations.OwnersBindAndUnlock : Prop :=
  Parts.OwnersBindAndUnlock ∧ Parts.BindKeyTestsInOrder ∧ Parts.UnlockRangeNeedsItsOwner

/-- LOCK-RANGE sets the locks selected, whatever the owner's state; when no OPEN job stands on the range in a blocked
direction nothing else happens. -/
def Parts.LockRangeSetsLocks : Prop :=
  ∀ (num range : Byte) (r : RangeNo) (rs ws : Bool) (s : State), s.takesRequests → s.prov ≠ none →
    range.toNat = r.val → s.rangeUsable r = true → (rs || ws) = true →
    let x := s.ranges.get r
    let locked : RangeRec := { x with readLock := x.readLock || rs, writeLock := x.writeLock || ws }
    (∀ t j, s.jobs.get t = some j → j.state = .opened → j.onRange r = true → locked.blocks j.direction = false) →
    (∀ t j, s.jobs.get t = some j → j.state = .ending → s.sectorInLane j.uid) →
    (∀ k, (s.slots.get k).drained = false) →
    let t : State := { s.frameEnded with ranges := s.ranges.set r locked }
    Gives (.lockRange num 5 range (flagByte rs) (flagByte ws)) s t [replyTo .lockRange num .ok (.range (t.rangeReport r))]

/-- LOCK-RANGE in every case in which it is accepted: the locks selected are set and no other range changes; every OPEN job that
has a segment on the range in a direction now locked ends LOCKED: with a sector in a lane it is ENDING, else it has left; every
other OPEN job goes on as it was. The reply comes first, then JOB-ENDED for the jobs that have left, in ascending tag order, and
no other JOB-ENDED. The sectors of the ended jobs are dropped, those in lanes apart. Authorities, lanes, the waiting list, the
provisioning record, profiles, streams, the hold and the counter stay. -/
def Parts.LockRangeEndsBlockedJobs : Prop :=
  ∀ (num range : Byte) (r : RangeNo) (rs ws : Bool) (s : State), s.takesRequests → s.JobsSettled → s.waitingListed →
    s.prov ≠ none → range.toNat = r.val → s.rangeUsable r = true → (rs || ws) = true →
    let x := s.ranges.get r
    let locked : RangeRec := { x with readLock := x.readLock || rs, writeLock := x.writeLock || ws }
    let ended := (s.jobs.rows.flatMap Option.toList).filter fun j =>
      j.state == .opened && j.onRange r && locked.blocks j.direction
    let ends := fun j : Job => j.state = .opened ∧ j.onRange r = true ∧ locked.blocks j.direction = true
    let left := fun j : Job => j.nextOut - (s.withdrawn (OutFrame.ofJob j.uid)).length
    ∃ (u : State) (tags : List Tag) (rest : List OutFrame),
      Gives (.lockRange num 5 range (flagByte rs) (flagByte ws)) s u
        (replyTo .lockRange num .ok (.range (u.rangeReport r)) ::
          tags.flatMap (fun tag => (s.jobs.get tag).toList.map fun j =>
            OutFrame.notice (.jobEnded tag .locked j.nextIn (left j))) ++ rest) ∧
      u.ranges = s.ranges.set r locked ∧ u.auths = s.auths ∧ u.lanes = s.lanes ∧ u.waiting = s.waiting ∧
      u.prov = s.prov ∧ u.profiles = s.profiles ∧ u.streams = s.streams ∧ u.hold = s.hold ∧ u.ticks = s.ticks ∧
      tags.Pairwise (· < ·) ∧
      (∀ tag, tag ∈ tags ↔ ∃ j, s.jobs.get tag = some j ∧ ends j ∧ ¬ s.sectorInLane j.uid) ∧
      (∀ f ∈ rest, ∀ tag reason nextIn delivered, f ≠ .notice (.jobEnded tag reason nextIn delivered)) ∧
      s.Drops (fun o => ended.any fun j => o.isJob j.uid) (fun f => ended.any fun j => OutFrame.ofJob j.uid f)
        (ended.flatMap fun j => j.reorder.map JobFinished.buffer) u ∧
      ∀ tag j, s.jobs.get tag = some j → j.state = .opened →
        (ends j → ¬ s.sectorInLane j.uid → u.jobs.get tag = none) ∧
        (ends j → s.sectorInLane j.uid → u.jobs.get tag = some
          { j with state := .ending, nextOut := left j, reorder := [], age := 0, reason := some .locked, owed := none }) ∧
        (¬ ends j → u.jobs.get tag = some j)

/-- LOCK-RANGE sets the locks selected and ends the OPEN jobs that they block; and what it and UNLOCK-RANGE refuse. -/
def Obligations.LockRangeLocksAndEndsJobs : Prop :=
  Parts.LockRangeSetsLocks ∧ Parts.LockRangeEndsBlockedJobs ∧ Parts.LockFieldsAreTested

/-- QUERY-RANGE, whole: the three tests of R33, no authority, and the range report; nothing changes. -/
def Obligations.QueryRangeReports : Prop :=
  ∀ (num range : Byte) (s : State), s.inReset = false →
    let c := Instr.queryRange num 3 range
    (s.deepPending ≠ none → OnlyReplies c s .queryRange num .power .none) ∧
      (s.deepPending = none → s.prov = none → OnlyReplies c s .queryRange num .notProvisioned .none) ∧
      (s.deepPending = none → s.prov ≠ none → 16 < range.toNat → OnlyReplies c s .queryRange num .badField .none) ∧
      ∀ r : RangeNo, s.deepPending = none → s.prov ≠ none → range.toNat = r.val →
        OnlyReplies c s .queryRange num .ok (.range (s.rangeReport r)) ∧
        ((s.rangeReport r).state = .undefined → (s.rangeReport r).base = none ∧ (s.rangeReport r).extent = none ∧
          (s.rangeReport r).owner = none ∧ (s.rangeReport r).lorRead = none ∧ (s.rangeReport r).lorWrite = none)

/-! ### Requests of the Authority Block -/

/-- ENROL, whole: the three tests of R51 and its own; accepted on a NOT-ENROLLED or SEALED authority, which becomes SEALED
with the blob given, its failure counter kept. -/
def Obligations.EnrolDecides : Prop :=
  ∀ (num auth : Byte) (blob : VerifierBlob) (s : State), s.inReset = false →
    let c := Instr.enrol num 51 auth blob
    (s.deepPending ≠ none → OnlyReplies c s .enrol num .power .none) ∧
      (s.deepPending = none → 3 < auth.toNat → OnlyReplies c s .enrol num .badField .none) ∧
      ∀ a : AuthNo, s.deepPending = none → auth.toNat = a.val →
        let r := s.auths.get a
        (r.state = .barred → OnlyReplies c s .enrol num .barred (.authority (s.authorityReport a) none)) ∧
        (r.state = .checking ∨ r.state = .opened →
          OnlyReplies c s .enrol num .busy (.authority (s.authorityReport a) none)) ∧
        (r.state = .notEnrolled ∨ r.state = .sealed →
          let t : State := { s.frameEnded with auths := s.auths.set a { r with state := .sealed, blob := some blob } }
          Gives c s t [replyTo .enrol num .ok (.authority (t.authorityReport a) none)])

/-- UNLOCK-AUTHORITY's tests 4 to 7 in order; on a SEALED authority with room in the Key Work Queue the check joins its tail,
the authority is CHECKING, and no reply is sent. -/
def Parts.UnlockAuthorityQueuesACheck : Prop :=
  ∀ (num auth : Byte) (cred : Credential) (a : AuthNo) (s : State), s.takesRequests → auth.toNat = a.val →
    let c := Instr.unlockAuthority num 35 auth cred
    let r := s.auths.get a
    let refused := fun code => OnlyReplies c s .unlockAuthority num code (.authority (s.authorityReport a) none)
    (r.state = .barred → refused .barred) ∧ (r.state = .notEnrolled → refused .notAuthorised) ∧
      (r.state = .checking → refused .busy) ∧ (r.state = .opened → refused .ok) ∧
      (r.state = .sealed → 4 ≤ s.workQueue.length → refused .busy) ∧
      (r.state = .sealed → s.workQueue.length < 4 →
        Gives c s
          { s.frameEnded with
            auths := s.auths.set a { r with state := .checking, op := some .check }
            workQueue := s.workQueue ++ [⟨.check a cred, num, false⟩] } [])

/-- CREATE-AUTHORITY's BARRED test and its tests 4 to 7 in order; accepted, the creation joins the queue with no reply and the
authority is CHECKING with operation CREATE. -/
def Parts.CreateAuthorityNeedsHealthyNoise : Prop :=
  ∀ (num auth : Byte) (cred : Credential) (a : AuthNo) (s : State), s.takesRequests → auth.toNat = a.val →
    let c := Instr.createAuthority num 35 auth cred
    let r := s.auths.get a
    let refused := fun code => OnlyReplies c s .createAuthority num code (.authority (s.authorityReport a) none)
    (r.state = .barred → refused .barred) ∧ (r.state = .checking → refused .busy) ∧
      (r.state = .sealed ∨ r.state = .opened → refused .alreadySet) ∧
      (r.state = .notEnrolled → s.wake.noise ≠ .healthy → refused .noiseNotReady) ∧
      (r.state = .notEnrolled → s.wake.noise = .healthy → 4 ≤ s.workQueue.length → refused .busy) ∧
      (r.state = .notEnrolled → s.wake.noise = .healthy → s.workQueue.length < 4 →
        Gives c s
          { s.frameEnded with
            auths := s.auths.set a { r with state := .checking, op := some .create }
            workQueue := s.workQueue ++ [⟨.creation a cred, num, false⟩] } [])

/-- SEAL-AUTHORITY erases an OPEN authority's key and keeps its blob and counter, and changes a SEALED or NOT-ENROLLED one
in nothing; SET-CREDENTIAL on an OPEN authority queues the rewrap, with room in the Key Work Queue, and changes no record;
both refuse a BARRED and a CHECKING authority, and SET-CREDENTIAL every other one that is not OPEN, and a full queue. -/
def Parts.SealAndSetCredential : Prop :=
  ∀ (num auth : Byte) (a : AuthNo) (s : State), s.takesRequests → auth.toNat = a.val →
    let r := s.auths.get a
    (r.state = .opened →
      let t : State := { s.frameEnded with auths := s.auths.set a { r with state := .sealed, key := none } }
      Gives (.sealAuthority num 3 auth) s t [replyTo .sealAuthority num .ok (.authority (t.authorityReport a) none)]) ∧
    (r.state = .sealed ∨ r.state = .notEnrolled →
      OnlyReplies (.sealAuthority num 3 auth) s .sealAuthority num .ok (.authority (s.authorityReport a) none)) ∧
    (r.state = .checking →
      OnlyReplies (.sealAuthority num 3 auth) s .sealAuthority num .busy (.authority (s.authorityReport a) none)) ∧
    (r.state = .barred →
      OnlyReplies (.sealAuthority num 3 auth) s .sealAuthority num .barred (.authority (s.authorityReport a) none)) ∧
    ∀ cred : Credential,
      let c := Instr.setCredential num 35 auth cred
      let refused := fun code => OnlyReplies c s .setCredential num code (.authority (s.authorityReport a) none)
      (r.state = .opened → s.workQueue.length < 4 →
        Gives c s { s.frameEnded with workQueue := s.workQueue ++ [⟨.rewrap a cred, num, false⟩] } []) ∧
      (r.state = .barred → refused .barred) ∧ (r.state = .checking → refused .busy) ∧
      (r.state = .sealed ∨ r.state = .notEnrolled → refused .notAuthorised) ∧
      (r.state = .opened → 4 ≤ s.workQueue.length → refused .busy)

/-- UNLOCK-AUTHORITY, CREATE-AUTHORITY, SEAL-AUTHORITY and SET-CREDENTIAL on an authority in each of its states. -/
def Obligations.AuthorityRequestsAnswerOrQueue : Prop :=
  Parts.UnlockAuthorityQueuesACheck ∧ Parts.CreateAuthorityNeedsHealthyNoise ∧ Parts.SealAndSetCredential

/-! ### Requests of the Key Store -/

/-- LOAD-KEY and GENERATE-KEY: on an EMPTY slot, under an OPEN authority and with room in the Key Work Queue (and, for a
generation, HEALTHY noise), the slot records the authority and the operation joins the queue, with no reply; each refusal of
tests 3 to 7 answers with the slot report after the wake and changes nothing. -/
def Obligations.KeysAreFilledThroughTheQueue : Prop :=
  ∀ (num slot auth : Byte) (blob : KeyBlob) (k : SlotNo) (a : AuthNo) (s : State), s.takesRequests →
    slot.toNat = k.val → auth.toNat = a.val →
    let r := s.slots.get k
    let report := ReplyBody.slot (s.wake.slotReport k) none
    let load := Instr.loadKey num 84 slot auth blob
    let gen := Instr.generateKey num 4 slot auth
    let both := fun code => OnlyReplies load s .loadKey num code report ∧ OnlyReplies gen s .generateKey num code report
    ((s.auths.get a).state = .barred → both .barred) ∧
      ((s.auths.get a).state ≠ .barred → (s.auths.get a).state ≠ .opened → both .notAuthorised) ∧
      ((s.auths.get a).state = .opened → r.state ≠ .empty → both .slotBusy) ∧
      ((s.auths.get a).state = .opened → r.state = .empty → s.wake.noise ≠ .healthy →
        OnlyReplies gen s .generateKey num .noiseNotReady report) ∧
      ((s.auths.get a).state = .opened → r.state = .empty → 4 ≤ s.workQueue.length →
        OnlyReplies load s .loadKey num .busy report ∧
        (s.wake.noise = .healthy → OnlyReplies gen s .generateKey num .busy report)) ∧
      ((s.auths.get a).state = .opened → r.state = .empty → s.workQueue.length < 4 →
        Gives load s
          { s.frameEnded with
            slots := s.slots.set k { r with state := .unwrapping, auth := some a }
            workQueue := s.workQueue ++ [⟨.unwrap a k blob, num, false⟩] } [] ∧
        (s.wake.noise = .healthy →
          Gives gen s
            { s.frameEnded with
              slots := s.slots.set k { r with state := .generating, auth := some a }
              workQueue := s.workQueue ++ [⟨.generation a k, num, false⟩] } []))

/-- PURGE-KEY and QUERY-SLOT: a READY slot that no range names becomes EMPTY at once with lane count 0, and else DRAINING with
the request number and no reply; each other case of R73 answers at once; QUERY-SLOT changes nothing. -/
def Obligations.PurgeWaitsForTheLanes : Prop :=
  ∀ (num slot : Byte) (k : SlotNo) (s : State), s.takesRequests → slot.toNat = k.val →
    let c := Instr.purgeKey num 3 slot
    let r := s.slots.get k
    let named := ∃ q, (s.ranges.get q).active = some k ∨ (s.ranges.get q).pending = some k
    let only := fun code => OnlyReplies c s .purgeKey num code (.slot (s.wake.slotReport k) none)
    (r.state = .empty → only .ok) ∧ (r.state ≠ .empty → r.state ≠ .ready → only .slotBusy) ∧
      (r.state = .ready → named → only .inUse) ∧
      (r.state = .ready → ¬ named → r.laneCount = 0 →
        let t : State := { s.frameEnded with slots := s.slots.set k KeySlot.initial }
        Gives c s t [replyTo .purgeKey num .ok (.slot (t.slotReport k) none)]) ∧
      (r.state = .ready → ¬ named → 0 < r.laneCount →
        Gives c s
          { s.frameEnded with slots := s.slots.set k { r with state := .draining, drain := some (.purge num) } } []) ∧
      OnlyReplies (.querySlot num 3 slot) s .querySlot num .ok (.slot (s.wake.slotReport k) none)

/-! ### Requests of the Job Table -/

/-- OPEN-JOB, accepted: with legal fields, the span on the drive, the hold clear, a lane in service, every LBA in a keyed and
open range, and at most 4 segments, the job takes the first free tag from the pointer on; it is WAITING when its span meets
the sweep window, else OPEN with its segments and the counter as open tick. -/
def Parts.OpenJobTakesATag : Prop :=
  ∀ (num stream direction : Byte) (first : Lba48) (count : Half) (st : StreamNo) (d : Direction) (t : Tag) (n : Nat)
    (prov : Provisioning) (s : State), s.takesRequests → s.prov = some prov → stream.toNat = st.val →
    direction = d.code → 1 ≤ count.toNat → count.toNat ≤ 256 → first.toNat + count.toNat ≤ prov.capacity →
    s.hold = false → (∃ l, s.lanes.get l ≠ .offline) →
    n < 32 → t.val = (s.nextTag.val + n) % 32 → s.jobs.get t = none →
    (∀ (m : Nat) (u : Tag), m < n → u.val = (s.nextTag.val + m) % 32 → (s.jobs.get u).isSome = true) →
    (∀ x, first.toNat ≤ x → x < first.toNat + count.toNat →
      (s.ranges.get (s.lookup x)).active.isSome = true ∧ (s.ranges.get (s.lookup x)).blocks d = false) →
    (s.resolve first.toNat count.toNat).length ≤ 4 →
    let job : Job :=
      { uid := s.nextUid, state := .waiting, stream := st, profile := (s.streams.get st).profile,
        format := s.profiles.get (s.streams.get st).profile, cls := (s.streams.get st).cls, direction := d,
        first := first.toNat, count := count.toNat, segments := [], nextIn := 0, nextOut := 0, reorder := [], age := 0,
        openTick := none, reason := none, owed := none }
    let taken : State := { s.frameEnded with nextTag := t + 1, nextUid := s.nextUid + 1 }
    let c := Instr.openJob num 12 stream direction first count
    (s.meetsWindow first.toNat count.toNat = true →
      Gives c s { taken with jobs := s.jobs.set t (some job), waiting := s.waiting ++ [t] }
        [replyTo .openJob num .ok (.opened t .waiting)]) ∧
    (s.meetsWindow first.toNat count.toNat = false →
      Gives c s
        { taken with
          jobs := s.jobs.set t (some
            { job with state := .opened, segments := s.resolve first.toNat count.toNat, openTick := some s.ticks }) }
        [replyTo .openJob num .ok (.opened t .admitted)])

/-- While the hold is set OPEN-JOB is refused HELD, its earlier tests passed, and takes no tag. -/
def Parts.HoldRefusesOpenJob : Prop :=
  ∀ (num stream direction : Byte) (first : Lba48) (count : Half) (prov : Provisioning) (s : State), s.takesRequests →
    s.prov = some prov → stream.toNat < 8 → direction = 0 ∨ direction = 1 → 1 ≤ count.toNat → count.toNat ≤ 256 →
    first.toNat + count.toNat ≤ prov.capacity → s.hold = true →
    OnlyReplies (.openJob num 12 stream direction first count) s .openJob num .held .none

/-- OPEN-JOB's tests 3 to 10 in order: BAD-FIELD, BEYOND-END, HELD, TABLE-FULL and NO-LANE without a body; NO-KEY and LOCKED
with the range of the lowest LBA that fails, and SPLIT-LIMIT with the number of segments. -/
def Parts.OpenJobTestsInOrder : Prop :=
  ∀ (num stream direction : Byte) (first : Lba48) (count : Half) (prov : Provisioning) (s : State), s.takesRequests →
    s.prov = some prov →
    let c := Instr.openJob num 12 stream direction first count
    let only := fun (code : ReplyCode) (body : ReplyBody) => OnlyReplies c s .openJob num code body
    let last := first.toNat + count.toNat
    let bad := 7 < stream.toNat ∨ 1 < direction.toNat ∨ count = 0 ∨ 256 < count.toNat
    let full := ∀ t, (s.jobs.get t).isSome = true
    let dark := ∀ l, s.lanes.get l = .offline
    let least := fun (p : Nat → Prop) (x : Nat) =>
      first.toNat ≤ x ∧ x < last ∧ p x ∧ ∀ y, first.toNat ≤ y → y < x → ¬ p y
    FirstFails (fun code => only code .none)
      [(bad, .badField), (prov.capacity < last, .beyondEnd), (s.hold = true, .held), (full, .tableFull), (dark, .noLane)] ∧
    ∀ d : Direction, direction = d.code → ¬ bad → last ≤ prov.capacity → s.hold = false → ¬ full → ¬ dark →
      s.RangesSettled →
      let unkeyed := fun x => (s.ranges.get (s.lookup x)).active = none
      let blocked := fun x => (s.ranges.get (s.lookup x)).blocks d = true
      let segments := (s.resolve first.toNat count.toNat).length
      (∀ x, least unkeyed x → only .noKey (.failedRange (s.lookup x))) ∧
      ((∀ x, ¬ least unkeyed x) → ∀ x, least blocked x → only .locked (.failedRange (s.lookup x))) ∧
      ((∀ x, ¬ least unkeyed x) → (∀ x, ¬ least blocked x) → 4 < segments → only .splitLimit (.segmentCount segments))

/-- OPEN-JOB accepted, WAITING or OPEN; refused HELD while the hold is set; and its refusals in order. -/
def Obligations.OpenJobTakesATagUnlessHeld : Prop :=
  Parts.OpenJobTakesATag ∧ Parts.HoldRefusesOpenJob ∧ Parts.OpenJobTestsInOrder

/-- END-JOB on a WAITING or OPEN job: with no sector of it in a lane it leaves at once and the reply OK comes first, with
next-in and the delivered count; else it is ENDING, CANCELLED, and owes the reply. Either way its sectors are dropped, those in
lanes apart. A free tag is STALE, an ENDING job BUSY. QUERY-JOB answers with the job report and changes nothing. -/
def Obligations.EndJobEndsOrWaits : Prop :=
  ∀ (num tag : Byte) (t : Tag) (s : State), s.takesRequests → s.prov ≠ none → tag.toNat = t.val →
    let c := Instr.endJob num 3 tag
    (s.jobs.get t = none → OnlyReplies c s .endJob num .stale (.job (s.jobReport t))) ∧
      (∀ j, s.jobs.get t = some j → j.state = .ending → OnlyReplies c s .endJob num .busy (.job (s.jobReport t))) ∧
      (∀ j, s.jobs.get t = some j → j.state ≠ .ending → ¬ s.sectorInLane j.uid →
        ∃ u rest, Gives c s u
          (replyTo .endJob num .ok
            (.ended t .cancelled j.nextIn (j.nextOut - (s.withdrawn (OutFrame.ofJob j.uid)).length)) :: rest) ∧
          u.jobs.get t = none ∧ t ∉ u.waiting ∧ s.DropsJob j u) ∧
      (∀ j, s.jobs.get t = some j → j.state ≠ .ending → s.sectorInLane j.uid →
        ∃ u frames k, Gives c s u frames ∧ u.jobs.get t = some k ∧ k.uid = j.uid ∧ k.state = .ending ∧
          k.reason = some .cancelled ∧ k.owed = some num ∧ k.nextIn = j.nextIn ∧ k.reorder = [] ∧
          s.DropsJob j u ∧ k.nextOut = j.nextOut - (s.withdrawn (OutFrame.ofJob j.uid)).length) ∧
      OnlyReplies (.queryJob num 3 tag) s .queryJob num .ok (.job (s.jobReport t))

/-! ### Requests of the Sweep Engine -/

/-- START-SWEEP, accepted: limit and class clamped, both cursors at the start cursor, the checkpoint multiple below it, the
range's pending slot the new slot; started paused nothing is issued; started running the finish of a complete sweep, or else
the issue step, follows the reply. -/
def Parts.StartSweepRecordsTheSweep : Prop :=
  ∀ (num range newSlot profile limit cls : Byte) (start : Lba64) (r : RangeNo) (owner : AuthNo) (old new : SlotNo)
    (p : ProfileNo) (k : ClassNo) (paused : Bool) (s : State), s.takesRequests → s.prov ≠ none → range.toNat = r.val →
    newSlot.toNat = new.val → profile.toNat = p.val → k.val = min cls.toNat 3 → s.rangeOwner r = some owner →
    (s.auths.get owner).state = .opened → s.sweep = none → (s.ranges.get r).active = some old → new ≠ old →
    (s.slots.get new).state = .ready → (s.slots.get new).auth = some owner → start.toNat ≤ s.extentEnd r →
    (∀ t j, s.jobs.get t = some j → j.state ≠ .ending →
      s.spanMeetsCursors j.first (j.first + j.count) r 0 start.toNat = false) →
    let c := Instr.startSweep num 16 range newSlot profile limit cls start (flagByte paused)
    let w : Sweep :=
      { state := if paused then .paused else .running, range := r, oldSlot := old, newSlot := new, profile := p, cls := k,
        limit := max 1 (min limit.toNat 64), committed := start.toNat, issued := start.toNat, pulls := [],
        checkpoint := start.toNat - start.toNat % 4096, blocked := false }
    let started : State := { s.frameEnded with
      sweep := some w, ranges := s.ranges.set r { s.ranges.get r with pending := some new } }
    (paused = true → Gives c s started [replyTo .startSweep num .ok (.sweep started.sweepReport)]) ∧
    (paused = false →
      let e := if s.extentEnd r ≤ start.toNat then started.finishSweep else started.issueStep
      Gives c s e.1 (replyTo .startSweep num .ok (.sweep e.1.sweepReport) :: e.2))

/-- START-SWEEP's tests 3 to 14 in order: BAD-FIELD without a body, the other refusals with the sweep report. -/
def Parts.StartSweepTestsInOrder : Prop :=
  ∀ (num range newSlot profile limit cls startPaused : Byte) (start : Lba64) (s : State), s.takesRequests →
    s.prov ≠ none →
    let c := Instr.startSweep num 16 range newSlot profile limit cls start startPaused
    (16 < range.toNat ∨ 19 < newSlot.toNat ∨ 7 < profile.toNat ∨ 1 < startPaused.toNat ∨
        (∃ r : RangeNo, range.toNat = r.val ∧ r ≠ 0 ∧ (s.ranges.get r).definition = none) →
      OnlyReplies c s .startSweep num .badField .none) ∧
    ∀ (r : RangeNo) (new : SlotNo) (owner : AuthNo) (paused : Bool), range.toNat = r.val → newSlot.toNat = new.val →
      profile.toNat < 8 → startPaused = flagByte paused → s.rangeOwner r = some owner →
      FirstFails
        (fun code =>
          OnlyReplies c s .startSweep num code (if code = .badField then .none else .sweep s.sweepReport))
        [((s.auths.get owner).state = .barred, .barred),
          ((s.auths.get owner).state ≠ .opened, .notAuthorised),
          (s.sweep ≠ none, .sweeping),
          ((s.ranges.get r).active = none, .noKey),
          ((s.ranges.get r).active = some new, .badField),
          ((s.slots.get new).state = .empty, .slotEmpty),
          ((s.slots.get new).state ≠ .ready, .slotBusy),
          ((s.slots.get new).auth ≠ some owner, .notAuthorised),
          (s.extentEnd r < start.toNat, .beyondEnd),
          (∃ t j, s.jobs.get t = some j ∧ j.state ≠ .ending ∧
            s.spanMeetsCursors j.first (j.first + j.count) r 0 start.toNat = true, .inUse)]

/-- START-SWEEP accepted, and its refusals in order. -/
def Obligations.StartSweepRecordsTheSweep : Prop :=
  Parts.StartSweepRecordsTheSweep ∧ Parts.StartSweepTestsInOrder

/-- PAUSE-SWEEP: POWER and NOT-PROVISIONED, NOT-SWEEPING while IDLE, PAUSING while pulls are out, PAUSED with its
notice when none is, and otherwise OK with no change. The pulls stay as they are, and in PAUSING the issue step issues none. -/
def Parts.PauseSweepDecides : Prop :=
  ∀ (num : Byte) (s : State), s.inReset = false →
    let c := Instr.pauseSweep num 2
    let reply := fun (code : ReplyCode) (t : State) => replyTo .pauseSweep num code (.sweep t.sweepReport)
    (s.deepPending ≠ none → OnlyReplies c s .pauseSweep num .power .none) ∧
      (s.deepPending = none → s.prov = none → OnlyReplies c s .pauseSweep num .notProvisioned .none) ∧
      (s.deepPending = none → s.prov ≠ none → s.sweep = none → Gives c s s.frameEnded [reply .notSweeping s]) ∧
      ∀ w, s.deepPending = none → s.prov ≠ none → s.sweep = some w →
        (w.state ≠ .running → Gives c s s.frameEnded [reply .ok s]) ∧
        (w.state = .running → w.pulls ≠ [] →
          let t : State := { s.frameEnded with sweep := some { w with state := .pausing } }
          Gives c s t [reply .ok t]) ∧
        (w.state = .running → w.pulls = [] →
          let t : State := { s.frameEnded with sweep := some { w with state := .paused } }
          Gives c s t [reply .ok t, .notice (.sweepPaused w.range w.committed none none)]) ∧
        (w.state = .pausing → Answers .issueStep s s)

/-- CANCEL-SWEEP of a sweep not PAUSED collapses it: no pull is left, the issued cursor is at the committed one, which is kept,
and the sectors of the pulls are dropped, those in lanes apart. After the reply stand SWEEP-PAUSED with the reason CANCELLED,
the frames of the re-evaluation of the waiting list, which the collapsed sweep meets, and the replies of the purges whose drains
this ends (their place: log entry 10). While PAUSED, OK and no change; while IDLE, NOT-SWEEPING. -/
def Parts.CancelSweepCollapses : Prop :=
  ∀ (num : Byte) (s : State), s.takesRequests → s.prov ≠ none →
    let c := Instr.cancelSweep num 2
    (s.sweep = none → OnlyReplies c s .cancelSweep num .notSweeping (.sweep s.sweepReport)) ∧
      ∀ w, s.sweep = some w →
        (w.state = .paused → OnlyReplies c s .cancelSweep num .ok (.sweep s.sweepReport)) ∧
        (w.state ≠ .paused →
          let collapsed : State := { s.frameEnded with
            sweep := some { w with state := .paused, pulls := [], issued := w.committed, blocked := false } }
          let waited := collapsed.reevaluate
          ∃ t purges, purges.Perm (s.purgesEnded t) ∧
            Gives c s t
              (replyTo .cancelSweep num .ok (.sweep t.sweepReport) ::
                .notice (.sweepPaused w.range w.committed (some .cancelled) none) :: (waited.2 ++ purges)) ∧
            t.sweep = collapsed.sweep ∧ t.jobs = waited.1.jobs ∧ t.waiting = waited.1.waiting ∧
            t.nextPull = s.nextPull ∧ t.ranges = s.ranges ∧ s.DropsPulls w.pulls t)

/-- RESUME-SWEEP: PAUSED becomes RUNNING, with the finish of a complete sweep or else the issue step after the reply; PAUSING
becomes RUNNING with the issue step; RUNNING is answered OK with no change; IDLE is NOT-SWEEPING. -/
def Parts.ResumeSweepRuns : Prop :=
  ∀ (num : Byte) (s : State), s.takesRequests → s.prov ≠ none →
    let c := Instr.resumeSweep num 2
    (s.sweep = none → OnlyReplies c s .resumeSweep num .notSweeping (.sweep s.sweepReport)) ∧
      ∀ w, s.sweep = some w →
        (w.state = .running → OnlyReplies c s .resumeSweep num .ok (.sweep s.sweepReport)) ∧
        (w.state ≠ .running →
          let u : State := { s.frameEnded with sweep := some { w with state := .running } }
          let e := if w.state = .paused ∧ s.extentEnd w.range ≤ w.committed then u.finishSweep else u.issueStep
          Gives c s e.1 (replyTo .resumeSweep num .ok (.sweep e.1.sweepReport) :: e.2))

/-- CANCEL-SWEEP collapses the sweep and RESUME-SWEEP takes it up again. -/
def Obligations.CancelCollapsesAndResumeRuns : Prop :=
  Parts.CancelSweepCollapses ∧ Parts.ResumeSweepRuns

/-- ABANDON-SWEEP, whole: POWER, NOT-PROVISIONED, NOT-SWEEPING, BUSY and MIGRATED; accepted while PAUSED at cursor 0, the
range's pending slot becomes none and the sweep IDLE, and the waiting list is re-evaluated behind the reply. -/
def Parts.AbandonSweepDecides : Prop :=
  ∀ (num : Byte) (s : State), s.inReset = false →
    let c := Instr.abandonSweep num 2
    let only := fun (code : ReplyCode) => OnlyReplies c s .abandonSweep num code (.sweep s.sweepReport)
    (s.deepPending ≠ none → OnlyReplies c s .abandonSweep num .power .none) ∧
      (s.deepPending = none → s.prov = none → OnlyReplies c s .abandonSweep num .notProvisioned .none) ∧
      (s.deepPending = none → s.prov ≠ none → s.sweep = none → only .notSweeping) ∧
      ∀ w, s.deepPending = none → s.prov ≠ none → s.sweep = some w →
        (w.state ≠ .paused → only .busy) ∧ (w.state = .paused → 0 < w.committed → only .migrated) ∧
        (w.state = .paused → w.committed = 0 →
          let u : State := { s.frameEnded with
            sweep := none, ranges := s.ranges.set w.range { s.ranges.get w.range with pending := none } }
          let e := u.reevaluate
          Gives c s e.1 (replyTo .abandonSweep num .ok (.sweep ⟨none, s.nextPull⟩) :: e.2))

/-- PAUSE-SWEEP in every state of the sweep, and ABANDON-SWEEP, whole. -/
def Obligations.PauseAndAbandonDecide : Prop :=
  Parts.PauseSweepDecides ∧ Parts.AbandonSweepDecides

/-- SWEEP-COMMIT: NOT-SWEEPING while the sweep is IDLE, STALE for a number in no pull, INCOMPLETE while sector-outs are to be
sent, OK with no change for a pull already committed; behind an uncommitted pull it sets the flag alone; else the committed
prefix leaves the list and the committed cursor moves to the end of the last pull that left, and what R139 lists follows behind
the reply. -/
def Obligations.SweepCommitMovesTheCursor : Prop :=
  ∀ (num : Byte) (pull : Half) (s : State), s.takesRequests → s.prov ≠ none →
    let c := Instr.sweepCommit num 4 pull
    let only := fun (code : ReplyCode) => OnlyReplies c s .sweepCommit num code (.sweep s.sweepReport)
    (s.sweep = none → only .notSweeping) ∧ ∀ w, s.sweep = some w →
      ((∀ p ∈ w.pulls, p.number ≠ pull) → only .stale) ∧
      ∀ before p after, w.pulls = before ++ p :: after → (∀ q ∈ before ++ after, q.number ≠ pull) → p.number = pull →
        (p.sent ≠ p.count → only .incomplete) ∧ (p.sent = p.count → p.committed = true → only .ok) ∧
        (p.sent = p.count → p.committed = false → (∃ q ∈ before, q.committed = false) →
          (∀ q, before.head? = some q → q.committed = false) →
          let t : State := { s.frameEnded with
            sweep := some { w with pulls := before ++ { p with committed := true, age := 0 } :: after } }
          Gives c s t [replyTo .sweepCommit num .ok (.sweep t.sweepReport)]) ∧
        (p.sent = p.count → p.committed = false → before = [] →
          ∀ gone rest, after = gone ++ rest → (∀ q ∈ gone, q.committed = true) →
          (∀ q, rest.head? = some q → q.committed = false) →
          let last := (p :: gone).getLastD p
          let u : State := { s.frameEnded with
            sweep := some { w with pulls := rest, committed := last.first + last.count - s.cursorBase w.range } }
          let e := u.afterCommit
          Gives c s e.1 (replyTo .sweepCommit num .ok (.sweep e.1.sweepReport) :: e.2))

/-- What follows a commit that has moved the cursor: a complete sweep finishes; else a checkpoint when a multiple of 4,096
above the last is reached, PAUSED with its notice for a PAUSING sweep whose list is empty, the re-evaluation of the waiting
list, and the issue step, in this order. -/
def Parts.CommitIsFollowedInOrder : Prop :=
  ∀ (w : Sweep) (s : State), s.sweep = some w →
    let multiple := w.committed - w.committed % 4096
    let w1 := if w.checkpoint < multiple then { w with checkpoint := multiple } else w
    let quiet := w.state = .pausing ∧ w.pulls = []
    let w2 := if quiet then { w1 with state := .paused } else w1
    let waited := ({ s with sweep := some w2 } : State).reevaluate
    let issued := waited.1.issueStep
    (s.extentEnd w.range ≤ w.committed → s.afterCommit = s.finishSweep) ∧
      (w.committed < s.extentEnd w.range →
        s.afterCommit = (issued.1,
          (if w.checkpoint < multiple then
            [.notice (.sweepCheckpoint w.range w.oldSlot w.newSlot w.profile w.committed .multiple)] else []) ++
          (if quiet then [.notice (.sweepPaused w.range w.committed none none)] else []) ++ waited.2 ++ issued.2))

/-- The finish: the range's active slot is its former pending slot and its pending slot none, the sweep IDLE; the old slot is
kept while another range names it, EMPTY when no sector is counted against it, and else DRAINING; SWEEP-DONE says which, and
the waiting list is re-evaluated behind it. -/
def Parts.FinishPromotesAndRetires : Prop :=
  ∀ (w : Sweep) (s : State), s.sweep = some w →
    let r := s.ranges.get w.range
    let idle : State := { s with
      sweep := none, ranges := s.ranges.set w.range { r with active := r.pending, pending := none } }
    let named := ∃ q, (idle.ranges.get q).active = some w.oldSlot ∨ (idle.ranges.get q).pending = some w.oldSlot
    let old := s.slots.get w.oldSlot
    let finishes := fun (t : State) (outcome : SlotOutcome) =>
      s.finishSweep =
        (t.reevaluate.1, .notice (.sweepDone w.range r.pending w.oldSlot outcome) :: t.reevaluate.2)
    (named → finishes idle .kept) ∧
      (¬ named → old.laneCount = 0 →
        finishes { idle with slots := s.slots.set w.oldSlot KeySlot.initial } .empty) ∧
      (¬ named → 0 < old.laneCount →
        finishes { idle with slots := s.slots.set w.oldSlot { old with state := .draining, drain := some .retire } }
          .draining)

/-- What follows a commit that has moved the cursor, and the finish. -/
def Obligations.CommitsAreFollowedInOrder : Prop :=
  Parts.CommitIsFollowedInOrder ∧ Parts.FinishPromotesAndRetires

/-! ### Sectors, the transmitter, the lanes -/

/-- JOB_SECTOR_IN: the five tests in order, each refusal with tag and index as received and nothing else; accepted, the
sector takes a free job buffer, next-in rises, the age is cleared, it joins the Lane Queue with the segment's slot, the job's
direction, class and format, and its slot's lane count rises; no frame. -/
def Obligations.JobSectorsAreTakenInOrder : Prop :=
  ∀ (tag index : Byte) (payload : List Byte) (s : State), s.inReset = false →
    let c := Instr.jobSectorIn tag index payload
    let refused := fun code => Gives c s s.frameEnded [.jobSector tag index code none none]
    (31 < tag.toNat → refused .unknownJob) ∧
      (∀ t : Tag, tag.toNat = t.val → (s.jobs.get t = none ∨ ∃ j, s.jobs.get t = some j ∧ j.state = .ending) →
        refused .unknownJob) ∧
      ∀ (t : Tag) (j : Job), tag.toNat = t.val → s.jobs.get t = some j →
        (j.state = .waiting → refused .notAdmitted) ∧
        (j.state = .opened → index.toNat ≠ j.nextIn ∨ j.count ≤ index.toNat → refused .order) ∧
        (∀ prov, s.prov = some prov → j.state = .opened → index.toNat = j.nextIn → j.nextIn < j.count →
          (payload.length ≠ prov.dataSize.bytes + j.format.metaSize.bytes → refused .length) ∧
          (payload.length = prov.dataSize.bytes + j.format.metaSize.bytes →
            ((∀ i, (s.jobPool.get i).isSome = true) → refused .noBuffer) ∧
            ∀ g, j.segmentAt j.nextIn = some g → (∃ i, s.jobPool.get i = none) →
              ∃ i, s.jobPool.get i = none ∧
                Answers c s
                  { s.frameEnded with
                    jobs := s.jobs.set t (some { j with nextIn := j.nextIn + 1, age := 0 })
                    jobPool := s.jobPool.set i (some ⟨.job j.uid t j.nextIn, .awaiting, payload⟩)
                    slots := s.slots.set g.slot
                      { s.slots.get g.slot with laneCount := (s.slots.get g.slot).laneCount + 1 }
                    laneQueue := s.laneQueue ++
                      [{ owner := .job j.uid t j.nextIn, buffer := .job i, lba := j.first + j.nextIn,
                         op := if j.direction = .encipher then .encipher g.slot else .decipher g.slot, cls := j.cls,
                         format := j.format, arrival := s.nextArrival }]
                    nextArrival := s.nextArrival + 1 }))

/-- SWEEP_SECTOR_IN: the four tests in order; accepted with the flag clear, the sector takes a free sweep buffer and joins
the Lane Queue under both slots with the sweep's class and profile; no frame. -/
def Parts.SweepSectorsAreTakenInOrder : Prop :=
  ∀ (pull : Half) (offset : Byte) (unwritten : Bool) (payload : List Byte) (s : State), s.inReset = false →
    let c := Instr.sweepSectorIn pull offset unwritten payload
    let refused := fun code => Gives c s s.frameEnded [.sweepSector pull offset code none none]
    ((∀ w, s.sweep = some w → ∀ p ∈ w.pulls, p.number ≠ pull) → refused .stale) ∧
      ∀ w before p after prov, s.sweep = some w → s.prov = some prov → w.pulls = before ++ p :: after →
        p.number = pull → (∀ q ∈ before ++ after, q.number ≠ pull ∧ q.uid ≠ p.uid) →
        let length := if unwritten then 0 else prov.dataSize.bytes + (s.profiles.get w.profile).metaSize.bytes
        (offset.toNat ≠ p.received ∨ p.count ≤ offset.toNat → refused .order) ∧
        (offset.toNat = p.received → p.received < p.count → payload.length ≠ length → refused .length) ∧
        (offset.toNat = p.received → p.received < p.count → payload.length = length → unwritten = false →
          ((∀ i, (s.sweepPool.get i).isSome = true) → refused .noBuffer) ∧
          ((∃ i, s.sweepPool.get i = none) → w.oldSlot ≠ w.newSlot → ∃ i, s.sweepPool.get i = none ∧
            Answers c s
              { s.frameEnded with
                sweep := some { w with pulls := before ++ { p with received := p.received + 1, age := 0 } :: after }
                sweepPool := s.sweepPool.set i (some ⟨.pull p.uid pull p.received, .awaiting, payload⟩)
                slots := (s.slots.set w.oldSlot
                    { s.slots.get w.oldSlot with laneCount := (s.slots.get w.oldSlot).laneCount + 1 }).set w.newSlot
                  { s.slots.get w.newSlot with laneCount := (s.slots.get w.newSlot).laneCount + 1 }
                laneQueue := s.laneQueue ++
                  [{ owner := .pull p.uid pull p.received, buffer := .sweep i, lba := p.first + p.received,
                     op := .recipher w.oldSlot w.newSlot, cls := w.cls, format := s.profiles.get w.profile,
                     arrival := s.nextArrival }]
                nextArrival := s.nextArrival + 1 }))

/-- An UNWRITTEN sweep sector-in takes no buffer and no lane: at the pull's handed-over count it is answered at once by an
UNWRITTEN sector-out, and else it waits in the reorder set without a frame. -/
def Parts.UnwrittenSectorsTakeNoBuffer : Prop :=
  ∀ (offset : Byte) (w : Sweep) (before after : List Pull) (p : Pull) (s : State), s.inReset = false →
    s.sweep = some w → w.pulls = before ++ p :: after → (∀ q ∈ before ++ after, q.number ≠ p.number ∧ q.uid ≠ p.uid) →
    offset.toNat = p.received → p.received < p.count →
    let c := Instr.sweepSectorIn p.number offset true []
    (p.handedOver = p.received → (∀ f ∈ p.reorder, f.offset < p.received) →
      Gives c s
        { s.frameEnded with
          sweep := some { w with pulls := before ++
            { p with received := p.received + 1, age := 0, handedOver := p.received + 1 } :: after } }
        [.sweepSector p.number offset .unwritten none (some p.uid)]) ∧
    (p.handedOver < p.received → (∀ f ∈ p.reorder, f.offset ≠ p.handedOver) →
      Gives c s
        { s.frameEnded with
          sweep := some { w with pulls := before ++
            { p with received := p.received + 1, age := 0, reorder := ⟨p.received, none⟩ :: p.reorder } :: after } }
        [])

/-- Sweep sector-ins with the unwritten flag clear and set. -/
def Obligations.SweepSectorsAndUnwritten : Prop :=
  Parts.SweepSectorsAreTakenInOrder ∧ Parts.UnwrittenSectorsTakeNoBuffer

/-- The transmitter, being idle, takes the head of the transmit order; a frame that has been sent leaves it, its buffer is
freed, and the OPEN job that handed over an OK sector-out, or the listed pull, makes progress; another frame's sending, such as
that of a LANE-FAULT sector-out, or of an OK one whose job is ENDING, reaches no job and no pull. -/
def Obligations.TransmitterSendsTheHead : Prop :=
  ∀ (f : OutFrame) (rest : List OutFrame) (s : State), s.inReset = false → s.order = f :: rest →
    (s.sending = none → Answers .transmitStart s { s with sending := some (s.frameBytes f) }) ∧
      ∀ bytes, s.sending = some bytes →
        let gone : State := { s with order := rest, sending := none }
        (f.owner = none → f.buffer = none → Answers .frameSent s gone) ∧
        (∀ tag index code i, f = .jobSector tag index code (some (.job i)) none →
          Answers .frameSent s { gone with jobPool := s.jobPool.set i none }) ∧
        (∀ index i uid (t : Tag) j, f = .jobSector (natByte t.val) index .ok (some (.job i)) (some uid) →
          s.jobs.get t = some j → j.uid = uid → j.state = .opened →
          Answers .frameSent s
            { gone with jobPool := s.jobPool.set i none, jobs := s.jobs.set t (some { j with age := 0 }) }) ∧
        (∀ index i uid (t : Tag) j, f = .jobSector (natByte t.val) index .ok (some (.job i)) (some uid) →
          s.jobs.get t = some j → j.uid = uid → j.state = .ending →
          Answers .frameSent s { gone with jobPool := s.jobPool.set i none }) ∧
        (∀ number offset code i, f = .sweepSector number offset code (some (.sweep i)) none →
          Answers .frameSent s { gone with sweepPool := s.sweepPool.set i none }) ∧
        (∀ number offset code b w before p after, f = .sweepSector number offset code b (some p.uid) →
          code = .ok ∧ (∃ i, b = some (.sweep i)) ∨ code = .unwritten ∧ b = none → s.sweep = some w →
          w.pulls = before ++ p :: after → (∀ q ∈ before ++ after, q.uid ≠ p.uid) →
          Answers .frameSent s
            { gone with
              sweepPool := match b with | some (.sweep i) => s.sweepPool.set i none | _ => s.sweepPool
              sweep := some { w with pulls := before ++ { p with sent := p.sent + 1, age := 0 } :: after } }) ∧
        ∀ uid, f.owner = some uid → (∀ t j, s.jobs.get t = some j → j.uid ≠ uid) →
          (∀ w, s.sweep = some w → ∀ p ∈ w.pulls, p.uid ≠ uid) →
          ∃ t, Answers .frameSent s t ∧ t.order = rest ∧ t.sending = none ∧ t.jobs = s.jobs ∧ t.sweep = s.sweep ∧
            ∀ b, f.buffer = some b → t.buffer b = none

/-- LANE_GRANT: of the waiting entries the one of lowest class, and within it of least arrival, goes to the lowest-numbered
IDLE lane with copies of its slots' keys; its buffer is IN-LANE; no lane count changes. With no entry or no IDLE lane nothing
happens. -/
def Obligations.GrantServesClassThenArrival : Prop :=
  ∀ s : State, s.inReset = false → s.arrivalsRise →
    (s.laneQueue = [] ∨ (∀ l, s.lanes.get l ≠ .idle) → Answers .laneGrant s s) ∧
      ∀ before e after lane buf, s.laneQueue = before ++ e :: after →
        (∀ x ∈ before ++ after, e.cls < x.cls ∨ e.cls = x.cls ∧ e.arrival < x.arrival) →
        s.lanes.get lane = .idle → (∀ l, l < lane → s.lanes.get l ≠ .idle) → s.buffer e.buffer = some buf →
        ∃ t, Answers .laneGrant s t ∧ t.laneQueue = before ++ after ∧
          t.lanes = s.lanes.set lane (.busy
            { owner := e.owner, buffer := e.buffer, lba := e.lba, task := s.laneTask e.op, format := e.format,
              counted := e.op.slots, since := s.ticks }) ∧
          t.buffer e.buffer = some { buf with stage := .inLane } ∧ t.slots = s.slots ∧ t.order = s.order ∧
          t.jobs = s.jobs ∧ t.sweep = s.sweep

/-- A sound completion for an OPEN job: the lane is IDLE and the lane counts fall; above next-out the sector waits in the
reorder set without a frame; at next-out it is handed over, and behind it, in index order, every finished sector of the reorder
set that follows without a gap (`run`), which leaves the set; with the last index JOB-DONE follows, with the elapsed time, and
the entry is free. -/
def Parts.JobCompletionsLeaveInOrder : Prop :=
  ∀ (lane : LaneNo) (e1 e2 : Block) (w : LaneWork) (uid index : Nat) (t : Tag) (j : Job) (s : State), s.inReset = false →
    s.lanes.get lane = .busy w → w.owner = .job uid t index → s.laneCheck w e1 e2 = true → s.jobs.get t = some j →
    j.uid = uid → j.state = .opened → (∀ k, ((s.lowerCounts w.counted).slots.get k).drained = false) →
    s.deepPending = none → (∀ f ∈ j.reorder, f.index ≠ index) →
    let out := fun f : JobFinished => OutFrame.jobSector (natByte t.val) (natByte f.index) .ok (some f.buffer) (some uid)
    let released : State := { s.lowerCounts w.counted with lanes := s.lanes.set lane .idle }
    let finished := released.setBuffer w.buffer
      (some ⟨w.owner, .finished, w.task.output s.dataSize w.format w.lba (s.lanePayload w)⟩)
    let c := Instr.laneCompletion lane e1 e2
    (index ≠ j.nextOut → (∀ f ∈ j.reorder, f.index ≠ j.nextOut) →
      Answers c s
        { finished with jobs := s.jobs.set t (some { j with reorder := ⟨index, w.buffer⟩ :: j.reorder }) }) ∧
    ∀ run : List JobFinished, index = j.nextOut → run.map JobFinished.index = List.range' (index + 1) run.length →
      (∀ f ∈ run, f ∈ j.reorder ∧ ∀ g ∈ j.reorder, g.index = f.index → g = f) →
      let next := index + 1 + run.length
      (next < j.count → (∀ f ∈ j.reorder, f.index ≠ next) →
        Gives c s
          { finished with jobs := s.jobs.set t (some { j with
              nextOut := next, reorder := j.reorder.filter fun f => f.index < index || next ≤ f.index }) }
          ((⟨index, w.buffer⟩ :: run).map out)) ∧
      (next = j.count →
        let gone : State := { finished with jobs := s.jobs.set t none }
        ∀ opened, j.openTick = some opened →
          Gives c s gone.issueStep.1
            ((⟨index, w.buffer⟩ :: run).map out ++ [.notice (.jobDone t j.count (s.ticks - opened))] ++
              gone.issueStep.2))

/-- A lane fault on a sector of an OPEN job: the lane is OFFLINE, the hold set, the sector's buffer stays taken; the job has
left when no other sector of it is in a lane, with JOB-ENDED LANE-FAULT behind the LANE-FAULT sector-out, and else is ENDING;
HOLD is the last frame, and no pull is issued. The job's other sectors are dropped, those in lanes apart. -/
def Parts.LaneFaultEndsItsJob : Prop :=
  ∀ (lane : LaneNo) (e1 e2 : Block) (w : LaneWork) (uid index : Nat) (t : Tag) (j : Job) (s : State), s.inReset = false →
    s.deepPending = none → s.lanes.get lane = .busy w → w.owner = .job uid t index → s.laneCheck w e1 e2 = false →
    s.jobs.get t = some j → j.uid = uid → j.state = .opened →
    ∃ (u : State) (before after : List OutFrame), Answers (.laneCompletion lane e1 e2) s u ∧
      u.lanes.get lane = .offline ∧ u.hold = true ∧ u.nextPull = s.nextPull ∧ (u.buffer w.buffer).isSome = true ∧
      u.order = before ++ .jobSector (natByte t.val) (natByte index) .laneFault (some w.buffer) none :: after ++
        [.notice (.hold lane)] ∧
      ((∀ l x, l ≠ lane → s.lanes.get l = .busy x → x.owner.isJob uid = false) → u.jobs.get t = none ∧
        ∃ rest, after = .notice (.jobEnded t .laneFault j.nextIn
          (j.nextOut - (s.withdrawn (OutFrame.ofJob uid)).length)) :: rest) ∧
      ((∃ l x, l ≠ lane ∧ s.lanes.get l = .busy x ∧ x.owner.isJob uid = true) →
        ∃ k, u.jobs.get t = some k ∧ k.state = .ending ∧ k.reason = some .laneFault) ∧
      (w.buffer ∉ s.givenUp (Owner.isJob uid) (OutFrame.ofJob uid) (j.reorder.map JobFinished.buffer) →
        ((s.lowerCounts w.counted).setBuffer w.buffer (some ⟨w.owner, .finished, []⟩)).DropsJob j u)

/-- A lane completion for an OPEN job, sound and faulty. -/
def Obligations.JobSectorsLeaveTheirLanes : Prop :=
  Parts.JobCompletionsLeaveInOrder ∧ Parts.LaneFaultEndsItsJob

/-- A sound completion for a listed pull above its handed-over count waits in the reorder set; at that count it is handed over,
and behind it, in offset order, every finished or unwritten sector of the reorder set that follows without a gap (`run`). A lane
fault on it collapses the sweep LANE-FAULT, the LANE-FAULT sector-out before SWEEP-PAUSED; the hold, which it sets, suspends the
re-evaluation, so that only the replies of the purges whose drains this ends stand between SWEEP-PAUSED and HOLD (their place:
log entry 10); and the other sectors of all pulls are dropped, those in lanes apart. -/
def Obligations.PullCompletionsAndFaults : Prop :=
  ∀ (lane : LaneNo) (e1 e2 : Block) (w : LaneWork) (offset : Nat) (x : Sweep) (before after : List Pull) (p : Pull)
    (s : State), s.inReset = false → s.deepPending = none → s.lanes.get lane = .busy w →
    w.owner = .pull p.uid p.number offset → s.sweep = some x → x.pulls = before ++ p :: after →
    (∀ q ∈ before ++ after, q.uid ≠ p.uid) → (∀ f ∈ p.reorder, f.offset ≠ offset) →
    (∀ k, ((s.lowerCounts w.counted).slots.get k).drained = false) →
    let c := Instr.laneCompletion lane e1 e2
    let released : State := { s.lowerCounts w.counted with lanes := s.lanes.set lane .idle }
    let finished := released.setBuffer w.buffer
      (some ⟨w.owner, .finished, w.task.output s.dataSize w.format w.lba (s.lanePayload w)⟩)
    (s.laneCheck w e1 e2 = true → offset ≠ p.handedOver → (∀ f ∈ p.reorder, f.offset ≠ p.handedOver) →
      Answers c s { finished with
        sweep := some { x with pulls := before ++ { p with reorder := ⟨offset, some w.buffer⟩ :: p.reorder } :: after } }) ∧
    (∀ run : List PullFinished, s.laneCheck w e1 e2 = true → offset = p.handedOver →
      run.map PullFinished.offset = List.range' (offset + 1) run.length →
      (∀ f ∈ run, f ∈ p.reorder ∧ ∀ g ∈ p.reorder, g.offset = f.offset → g = f) →
      let next := offset + 1 + run.length
      let out := fun f : PullFinished => OutFrame.sweepSector p.number (natByte f.offset)
        (if f.buffer.isSome then .ok else .unwritten) f.buffer (some p.uid)
      (∀ f ∈ p.reorder, f.offset ≠ next) →
      Gives c s
        { finished with sweep := some { x with pulls := before ++ { p with
            handedOver := next, reorder := p.reorder.filter fun f => f.offset < offset || next ≤ f.offset } :: after } }
        ((⟨offset, some w.buffer⟩ :: run).map out)) ∧
    (s.laneCheck w e1 e2 = false → ∃ u front purges, Answers c s u ∧ u.lanes.get lane = .offline ∧ u.hold = true ∧
      purges.Perm (s.purgesEnded u) ∧ u.jobs = s.jobs ∧ u.waiting = s.waiting ∧
      u.sweep = some { x with state := .paused, pulls := [], issued := x.committed, blocked := false } ∧
      (u.buffer w.buffer).isSome = true ∧
      u.order = front ++ [.sweepSector p.number (natByte offset) .laneFault (some w.buffer) none,
        .notice (.sweepPaused x.range x.committed (some .laneFault) (some p.number))] ++ purges ++ [.notice (.hold lane)] ∧
      (w.buffer ∉ s.givenUp (Owner.isPulls x.pulls) (OutFrame.ofPulls x.pulls)
          (x.pulls.flatMap fun p => p.reorder.filterMap PullFinished.buffer) →
        ((s.lowerCounts w.counted).setBuffer w.buffer (some ⟨w.owner, .finished, []⟩)).DropsPulls x.pulls u))

/-- A completion whose owner is gone, or is a job in ENDING, drops the output: the buffer is freed, the lane count of each
slot falls by the sectors of this work counted against it, no sector-out is sent; a failed self-check among these still makes
the lane OFFLINE, sets the hold and raises HOLD. -/
def Parts.DroppedOutputsFreeTheBuffer : Prop :=
  ∀ (lane : LaneNo) (e1 e2 : Block) (w : LaneWork) (s : State), s.inReset = false → s.lanes.get lane = .busy w →
    (∀ uid tag index, w.owner = .job uid tag index → ∀ j, s.jobs.get tag = some j → j.uid = uid → j.state = .ending) →
    (∀ uid number offset, w.owner = .pull uid number offset → ∀ x, s.sweep = some x → ∀ p ∈ x.pulls, p.uid ≠ uid) →
    ∃ u frames, Answers (.laneCompletion lane e1 e2) s u ∧ u.order = s.order ++ frames ∧
      (∀ f ∈ frames, f.isSector = false) ∧ u.buffer w.buffer = none ∧
      (s.deepPending = none →
        ∀ k, (u.slots.get k).laneCount = (s.slots.get k).laneCount - w.counted.countP fun n => n = k) ∧
      (s.deepPending = none → ∀ k, u.slots.get k ≠ s.slots.get k → k ∈ w.counted ∨ (s.slots.get k).drained = true) ∧
      (s.laneCheck w e1 e2 = true → u.lanes.get lane = .idle ∧ u.hold = s.hold) ∧
      (s.laneCheck w e1 e2 = false → u.lanes.get lane = .offline ∧ u.hold = true ∧ OutFrame.notice (.hold lane) ∈ frames)

/-- What follows such a completion where the part does not enter DEEP at it: with the last sector in a lane of a job in ENDING
the job leaves, its entry is free, and the reply to END-JOB or JOB-ENDED is the first frame, the issue step's frames standing
behind; the replies of the purges whose drains this ends follow the job's frame and stand before those of the issue step (log
entry 10), and HOLD of a failed self-check is last. -/
def Parts.DroppedOutputsAreFollowed : Prop :=
  ∀ (lane : LaneNo) (e1 e2 : Block) (w : LaneWork) (s : State), s.inReset = false → s.lanes.get lane = .busy w →
    (∀ uid tag index, w.owner = .job uid tag index → ∀ j, s.jobs.get tag = some j → j.uid = uid → j.state = .ending) →
    (∀ uid number offset, w.owner = .pull uid number offset → ∀ x, s.sweep = some x → ∀ p ∈ x.pulls, p.uid ≠ uid) →
    s.deepPending = none ∨ (∃ l v, l ≠ lane ∧ s.lanes.get l = .busy v) →
    let c := Instr.laneCompletion lane e1 e2
    let sound := s.laneCheck w e1 e2
    let hold := if sound then [] else [OutFrame.notice (.hold lane)]
    let lowered : State := { s.lowerCounts w.counted with
      lanes := s.lanes.set lane (if sound then .idle else .offline), hold := s.hold || !sound }
    let freed : State := { lowered.freeBuffer w.buffer with slots := lowered.slots.map KeySlot.settled }
    let lastOf := fun uid : Nat => ∀ l v, l ≠ lane → s.lanes.get l = .busy v → v.owner.isJob uid = false
    ∃ purges, purges.Perm (s.purgesEnded freed) ∧
      ((∀ uid tag index j, w.owner = .job uid tag index → s.jobs.get tag = some j → j.uid = uid → ¬ lastOf uid) →
        Gives c s freed (purges ++ hold)) ∧
      ∀ uid tag index j, w.owner = .job uid tag index → s.jobs.get tag = some j → j.uid = uid → lastOf uid →
        let gone : State := { freed with jobs := s.jobs.set tag none }
        Gives c s gone.issueStep.1 (j.leaveFrame tag :: (purges ++ gone.issueStep.2 ++ hold))

/-- While the part is entering DEEP, every completion is of this kind, and the one after which no lane is BUSY enters DEEP in
its own event: no job, sweep or key is left, every range is relocked, OPEN authorities are SEALED with blob and counter kept;
the completion's own frames stand first, that of the job that leaves and HOLD, then the reply OK to DEEP, NOISE-HEALTH where the
source was HEALTHY, and POWER-STATE. -/
def Parts.LastCompletionEntersDeep : Prop :=
  ∀ (lane : LaneNo) (e1 e2 : Block) (w : LaneWork) (num : Byte) (s : State), s.inReset = false → s.DeepSettled →
    s.deepPending = some num → s.lanes.get lane = .busy w → (∀ l v, l ≠ lane → s.lanes.get l ≠ .busy v) →
    let left := match w.owner with
      | .job uid tag _ => ((s.jobs.get tag).toList.filter fun j => j.uid = uid).map fun j => j.leaveFrame tag
      | .pull .. => []
    ∃ t, Answers (.laneCompletion lane e1 e2) s t ∧ t.power = .deep ∧ t.deepPending = none ∧ t.Bare ∧ s.Relocked t ∧
      t.noise = .stopped ∧ t.ticks = s.ticks ∧ t.buffer w.buffer = none ∧
      (∀ a, t.auths.get a = (s.auths.get a).sealedAtEntry) ∧
      t.order = s.order ++ left ++ (if s.laneCheck w e1 e2 then [] else [.notice (.hold lane)]) ++
        [replyTo .deep num .ok .none] ++ (if s.noise = .healthy then [.notice (.noiseHealth .stopped)] else []) ++
        [.notice (.powerState .deep .request)]

/-- A completion whose owner is gone or in ENDING: the dropped output, what follows it, and the entry to DEEP. -/
def Obligations.DroppedCompletionsFreeTheBuffer : Prop :=
  Parts.DroppedOutputsFreeTheBuffer ∧ Parts.DroppedOutputsAreFollowed ∧ Parts.LastCompletionEntersDeep

/-! ### The wrap unit -/

/-- WRAP_UNIT_START: an idle unit takes the head of the queue. An unwrap, a generation or a rewrap whose authority is not OPEN
ends NOT-AUTHORISED; a generation or creation that is marked ends NOISE-LOST; the slot is then EMPTY, or the authority of a
creation NOT-ENROLLED with its counter; else the operation runs, with a copy of the authority key where it needs one. -/
def Obligations.WrapUnitTestsAtTheStart : Prop :=
  ∀ (i : WorkItem) (rest : List WorkItem) (s : State), s.inReset = false → s.running = none → s.workQueue = i :: rest →
    let taken : State := { s with workQueue := rest }
    let runs := fun key => Answers .wrapUnitStart s { taken with running := some ⟨i, key, s.ticks⟩ }
    let emptied := fun k : SlotNo => ({ taken with slots := s.slots.set k KeySlot.initial } : State)
    let slotEnds := fun r k code =>
      Gives .wrapUnitStart s (emptied k) [replyTo r i.num code (.slot ((emptied k).slotReport k) none)]
    (∀ a k blob, i.op = .unwrap a k blob →
      ((s.auths.get a).state = .opened → runs (s.auths.get a).key) ∧
      ((s.auths.get a).state ≠ .opened → slotEnds .loadKey k .notAuthorised)) ∧
    (∀ a k, i.op = .generation a k →
      ((s.auths.get a).state = .opened → i.noiseLost = false → runs (s.auths.get a).key) ∧
      ((s.auths.get a).state ≠ .opened → slotEnds .generateKey k .notAuthorised) ∧
      ((s.auths.get a).state = .opened → i.noiseLost = true → slotEnds .generateKey k .noiseLost)) ∧
    (∀ a cred, i.op = .check a cred → runs none) ∧
    (∀ a cred, i.op = .creation a cred →
      (i.noiseLost = false → runs none) ∧
      (i.noiseLost = true →
        let t : State := { taken with
          auths := s.auths.set a ⟨.notEnrolled, none, none, none, (s.auths.get a).failures⟩ }
        Gives .wrapUnitStart s t
          [replyTo .createAuthority i.num .noiseLost (.authority (t.authorityReport a) none)])) ∧
    ∀ a cred, i.op = .rewrap a cred →
      ((s.auths.get a).state = .opened → runs (s.auths.get a).key) ∧
      ((s.auths.get a).state ≠ .opened →
        Gives .wrapUnitStart s taken
          [replyTo .setCredential i.num .notAuthorised (.authority (s.authorityReport a) none)])

/-- UNWRAP_COMPLETE and GENERATION_COMPLETE: the slot becomes READY with its 64 bytes and lane count 0 and the reply OK
follows, for a generation with the key blob that wraps them; a blob that does not open leaves the slot EMPTY and is answered
BAD-BLOB. The material drawn and the blob's bytes are free values (log entries 2 and 3): this holds for all of them. -/
def Obligations.SlotsBecomeReady : Prop :=
  ∀ (i : WorkItem) (key : AuthKey) (since : Ticks) (a : AuthNo) (k : SlotNo) (s : State), s.inReset = false →
    s.running = some ⟨i, some key, since⟩ →
    let r := s.slots.get k
    let idle : State := { s with running := none }
    let ready := fun (t : State) (m : KeyMaterial) =>
      ({ t with slots := s.slots.set k { r with state := .ready, key := some m, laneCount := 0 } } : State)
    (∀ blob m, i.op = .unwrap a k blob → s.openKeyBlob a key blob = some m →
      Gives .unwrapComplete s (ready idle m) [replyTo .loadKey i.num .ok (.slot ((ready idle m).slotReport k) none)]) ∧
    (∀ blob, i.op = .unwrap a k blob → s.openKeyBlob a key blob = none →
      let t : State := { idle with slots := s.slots.set k KeySlot.initial }
      Gives .unwrapComplete s t [replyTo .loadKey i.num .badBlob (.slot (t.slotReport k) none)]) ∧
    (i.op = .generation a k →
      ∃ m blob t, Gives .generationComplete s t [replyTo .generateKey i.num .ok (.slot (t.slotReport k) (some blob))] ∧
        t.slots = s.slots.set k { r with state := .ready, key := some m, laneCount := 0 } ∧ t.running = none ∧
        t.workQueue = s.workQueue ∧ t.auths = s.auths ∧ t.ranges = s.ranges ∧ t.noise = s.noise ∧
        t.openKeyBlob a key blob = some m)

/-- CHECK_COMPLETE: a good check opens the authority with the key that the blob yields and clears the counter; a bad one
raises it, and leaves the authority SEALED below 5 and BARRED, holding nothing, at 5. -/
def Parts.ChecksOpenOrCount : Prop :=
  ∀ (i : WorkItem) (key : Option AuthKey) (since : Ticks) (a : AuthNo) (cred : Credential) (s : State),
    s.inReset = false → s.running = some ⟨i, key, since⟩ → i.op = .check a cred →
    let r := s.auths.get a
    let after := fun x : Authority => ({ s with running := none, auths := s.auths.set a x } : State)
    let answers := fun (x : Authority) (code : ReplyCode) =>
      Gives .checkComplete s (after x) [replyTo .unlockAuthority i.num code (.authority ((after x).authorityReport a) none)]
    (∀ yielded, s.checkOutcome a cred = some yielded → answers ⟨.opened, r.blob, some yielded, none, 0⟩ .ok) ∧
      (s.checkOutcome a cred = none → r.failures < 4 →
        answers ⟨.sealed, r.blob, none, none, r.failures + 1⟩ .badCredential) ∧
      (s.checkOutcome a cred = none → r.failures = 4 → answers ⟨.barred, none, none, none, 5⟩ .barred)

/-- CREATION_COMPLETE and REWRAP_COMPLETE: a creation opens the authority with a drawn key, keeping its counter; a rewrap
replaces the held blob whatever the authority's state, and changes neither key nor counter; both reply OK with the blob,
which then opens under the credential given. Key and blob are free values (log entries 2 and 3). -/
def Parts.VerifiersAreMadeAndOpen : Prop :=
  ∀ (i : WorkItem) (key : Option AuthKey) (since : Ticks) (a : AuthNo) (cred : Credential) (s : State),
    s.inReset = false → s.running = some ⟨i, key, since⟩ →
    (i.op = .creation a cred →
      ∃ made blob t, Gives .creationComplete s t
          [replyTo .createAuthority i.num .ok (.authority (t.authorityReport a) (some blob))] ∧
        t.auths = s.auths.set a ⟨.opened, some blob, some made, none, (s.auths.get a).failures⟩ ∧ t.running = none ∧
        t.workQueue = s.workQueue ∧ t.slots = s.slots ∧ t.openVerifier a cred blob = some made) ∧
    ∀ taken, i.op = .rewrap a cred → key = some taken →
      ∃ blob t, Gives .rewrapComplete s t
          [replyTo .setCredential i.num .ok (.authority (t.authorityReport a) (some blob))] ∧
        t.auths = s.auths.set a { s.auths.get a with blob := some blob } ∧ t.running = none ∧
        t.workQueue = s.workQueue ∧ t.slots = s.slots ∧ t.openVerifier a cred blob = some taken

/-- A verifier blob opens for the authority and the credential it was made under and for no other, a key blob for the
authority and the authority key, and a blob that this part has not made for none. A new blob is none that was made before, and
a newly drawn authority key none that a blob was made of or under, while fewer than 2^64 were made since the model began. Which
blobs were made before that is a free value (log entry 3). -/
def Parts.BlobsOpenUnderTheirBindingAlone : Prop :=
  ∀ s : State,
    (∀ m ∈ s.madeVerifiers, (∀ n ∈ s.madeVerifiers, n.blob = m.blob → n = m) →
      s.openVerifier m.auth m.cred m.blob = some m.key) ∧
    (∀ a cred blob key, s.openVerifier a cred blob = some key → ⟨a, cred, blob, key⟩ ∈ s.madeVerifiers) ∧
    (∀ a b cred other blob key more, s.openVerifier a cred blob = some key → s.openVerifier b other blob = some more →
      a = b ∧ cred = other ∧ key = more) ∧
    (∀ m ∈ s.madeKeys, (∀ n ∈ s.madeKeys, n.blob = m.blob → n = m) →
      s.openKeyBlob m.auth m.authKey m.blob = some m.key) ∧
    (∀ a key blob m, s.openKeyBlob a key blob = some m → ⟨a, key, blob, m⟩ ∈ s.madeKeys) ∧
    (∀ a b key other blob m n, s.openKeyBlob a key blob = some m → s.openKeyBlob b other blob = some n →
      a = b ∧ key = other ∧ m = n) ∧
    (s.verifierLog.length < 2 ^ 64 → ∀ a cred key, ∀ m ∈ s.madeVerifiers, s.newVerifier a cred key ≠ m.blob) ∧
    (s.keyLog.length < 2 ^ 64 → ∀ a key k, ∀ m ∈ s.madeKeys, s.newKeyBlob a key k ≠ m.blob) ∧
    (s.verifierLog.length < 2 ^ 64 → s.keyLog.length < 2 ^ 64 →
      (∀ m ∈ s.madeVerifiers, s.drawnAuthKey ≠ m.key) ∧ ∀ m ∈ s.madeKeys, s.drawnAuthKey ≠ m.authKey)

/-- The ends of checks, creations and rewraps, and what blobs open under. -/
def Obligations.ChecksCreationsAndRewrapsEnd : Prop :=
  Parts.ChecksOpenOrCount ∧ Parts.VerifiersAreMadeAndOpen ∧ Parts.BlobsOpenUnderTheirBindingAlone

/-! ### Time and the noise source -/

/-- TICK: in ACTIVE the counter rises by 1, from 2^32 - 1 to 0; away from a carry of bit 14 nothing else changes; while the
part is in DOZE or DEEP, or held in reset, the counter is held. -/
def Parts.TicksCountInActive : Prop :=
  ∀ (order : CarryOrder) (s : State),
    (s.inReset = true ∨ s.power ≠ .active → Answers (.tick order) s s) ∧
      (s.inReset = false → s.power = .active →
        (∃ t, Answers (.tick order) s t ∧ t.ticks.toNat = (s.ticks.toNat + 1) % 2 ^ 32) ∧
        ((s.ticks.toNat + 1) % 2 ^ 14 ≠ 0 → Answers (.tick order) s { s with ticks := s.ticks + 1 }))

/-- JOB_STALL and PULL_STALL: the carry of the selected bit that would raise an OPEN job's age to 3 ends the job STALLED, and it
leaves at once with no sector in a lane; the one that would raise an uncommitted pull's age to 3 collapses the sweep STALLED,
naming the oldest such pull. Where the carry stalls nothing else, the sectors of that job, or of all pulls, are dropped, those
in lanes apart, and behind SWEEP-PAUSED, where the noise source stays as it is, stand the frames of the re-evaluation of the
waiting list and the replies of the purges whose drains this ends (their place: log entry 10). That these two commands are
themselves the advance of the counter by 1 is the model's choice (log entry 6), and so is the order in which the carry is taken,
of which every one is stated (log entry 5). -/
def Parts.CarriesStallJobsAndPulls : Prop :=
  ∀ (order : CarryOrder) (s : State), s.inReset = false → s.power = .active →
    (s.ticks.toNat + 1) % 2 ^ (14 + 2 * s.interval.val) = 0 →
    (∀ t j, s.jobs.get t = some j → j.state = .opened → j.age = 2 →
      ∃ u, Answers (.jobStall order) s u ∧ u.ticks = s.ticks + 1 ∧
        (¬ s.sectorInLane j.uid → u.jobs.get t = none ∧ ∃ delivered ≤ j.nextOut,
          OutFrame.notice (.jobEnded t .stalled j.nextIn delivered) ∈ u.order) ∧
        (s.sectorInLane j.uid → ∃ k, u.jobs.get t = some k ∧ k.state = .ending ∧ k.reason = some .stalled) ∧
        ((∀ t' j', s.jobs.get t' = some j' → j'.state = .opened → t' = t ∨ j'.age < 2) →
          (∀ w, s.sweep = some w → ∀ p ∈ w.pulls, p.committed = true ∨ p.age < 2) → s.DropsJob j u)) ∧
    (∀ w before p after, s.sweep = some w → w.pulls = before ++ p :: after →
      (∀ q ∈ before, q.committed = true ∨ q.age < 2) → p.committed = false → 2 ≤ p.age →
      ∃ u, Answers (.pullStall order) s u ∧ u.ticks = s.ticks + 1 ∧
        u.sweep = some { w with state := .paused, pulls := [], issued := w.committed, blocked := false } ∧
        OutFrame.notice (.sweepPaused w.range w.committed (some .stalled) (some p.number)) ∈ u.order ∧
        ((∀ t j, s.jobs.get t = some j → j.state = .opened → j.age < 2) → s.DropsPulls w.pulls u ∧
          ((∀ k, (s.slots.get k).drained = false) → u.noise = s.noise →
            let collapsed : State := { s with
              ticks := s.ticks + 1
              sweep := some { w with state := .paused, pulls := [], issued := w.committed, blocked := false } }
            ∃ front purges back, purges.Perm (s.purgesEnded u) ∧
              u.order = front ++ [.notice (.sweepPaused w.range w.committed (some .stalled) (some p.number))] ++
                collapsed.reevaluate.2 ++ purges ++ back)))

/-- TICK short of a stall: at a carry of the selected bit every OPEN job and every uncommitted pull ages by 1, while WAITING and
ENDING jobs and committed pulls stay as they are; in WARMING a carry of bit 14 raises the warm-up count by 1; nothing else
changes, in whichever order the carry is taken (log entry 5). -/
def Parts.CarriesAgeShortOfStalls : Prop :=
  ∀ (order : CarryOrder) (s : State), s.inReset = false → s.power = .active →
    (∀ t j, s.jobs.get t = some j → j.state = .opened → j.age < 2) →
    (∀ t j, s.jobs.get t = some j → j.state = .ending → s.sectorInLane j.uid) →
    (∀ w, s.sweep = some w → ∀ p ∈ w.pulls, p.committed = false → p.age < 2) →
    (∀ k, (s.slots.get k).drained = false) → (s.noise = .warming → s.warmCount < 3) →
    (s.noise = .degraded → (s.ticks.toNat + 1) % 2 ^ 20 ≠ 0) →
    let ages := (s.ticks.toNat + 1) % 2 ^ (14 + 2 * s.interval.val) = 0
    let agedJob := fun j : Job => if j.state = .opened then { j with age := j.age + 1 } else j
    let agedPull := fun p : Pull => if p.committed then p else { p with age := p.age + 1 }
    Answers (.tick order) s { s with
      ticks := s.ticks + 1
      jobs := if ages then s.jobs.map (Option.map agedJob) else s.jobs
      sweep := if ages then s.sweep.map fun w => { w with pulls := w.pulls.map agedPull } else s.sweep
      warmCount := if s.noise = .warming ∧ (s.ticks.toNat + 1) % 2 ^ 14 = 0 then s.warmCount + 1 else s.warmCount }

/-- The advance of the counter, the carries that age jobs and pulls, and those that stall them. -/
def Obligations.TicksAndCarries : Prop :=
  Parts.TicksCountInActive ∧ Parts.CarriesAgeShortOfStalls ∧ Parts.CarriesStallJobsAndPulls

/-- NOISE_HEALTHY, NOISE_RETRY and SAMPLE_TEST_FAILURE: the fourth carry of bit 14 in WARMING makes the source HEALTHY with its
notice; a carry of bit 20 in DEGRADED makes it WARMING at 0; a failed sample test makes HEALTHY and WARMING DEGRADED, only the
first with a notice, and leaves the other states; leaving HEALTHY marks what waits and ends a running generation or creation
NOISE-LOST behind the notice, and leaves a running operation that draws nothing. That NOISE_HEALTHY and NOISE_RETRY are
themselves the advance of the counter by 1 is the model's choice (log entry 6, in every order of the carry: log entry 5), and so
is the warm-up count of 0 in DEGRADED, which no rule reads there (log entry 21). -/
def Obligations.NoiseHealthFollowsItsCarries : Prop :=
  ∀ (order : CarryOrder) (s : State), s.inReset = false →
    (s.power = .active → (s.ticks.toNat + 1) % 2 ^ 14 = 0 → s.noise = .warming → s.warmCount = 3 →
      ∃ t, Answers (.noiseHealthy order) s t ∧ t.noise = .healthy ∧ t.ticks = s.ticks + 1 ∧
        OutFrame.notice (.noiseHealth .healthy) ∈ t.order) ∧
    (s.power = .active → (s.ticks.toNat + 1) % 2 ^ 20 = 0 → s.noise = .degraded →
      ∃ t, Answers (.noiseRetry order) s t ∧ t.noise = .warming ∧ t.warmCount = 0 ∧ t.ticks = s.ticks + 1) ∧
    (s.noise = .warming → Answers .sampleTestFailure s { s with noise := .degraded, warmCount := 0 }) ∧
    (s.noise = .degraded ∨ s.noise = .stopped → Answers .sampleTestFailure s s) ∧
    (s.noise = .healthy →
      let marked : State := { s with
        noise := .degraded
        warmCount := 0
        workQueue := s.workQueue.map fun i => { i with noiseLost := i.noiseLost || i.op.draws } }
      ((∀ r, s.running = some r → r.item.op.draws = false) →
          Gives .sampleTestFailure s marked [.notice (.noiseHealth .degraded)]) ∧
        (∀ r a cred, s.running = some r → r.item.op = .creation a cred →
          let t : State := { marked with
            running := none, auths := s.auths.set a ⟨.notEnrolled, none, none, none, (s.auths.get a).failures⟩ }
          Gives .sampleTestFailure s t [.notice (.noiseHealth .degraded),
            replyTo .createAuthority r.item.num .noiseLost (.authority (t.authorityReport a) none)]) ∧
        ∀ r a k, s.running = some r → r.item.op = .generation a k →
          let t : State := { marked with running := none, slots := s.slots.set k KeySlot.initial }
          Gives .sampleTestFailure s t [.notice (.noiseHealth .degraded),
            replyTo .generateKey r.item.num .noiseLost (.slot (t.slotReport k) none)])

/-! ### Power events and the parts of events -/

/-- The supply warning, in ACTIVE or DOZE, takes the part to DEEP in one event: nothing is left in lanes, queues, jobs, sweep or
slots, every range is relocked, checks and creations are cut off, OPEN authorities are SEALED with blob and counter kept,
OFFLINE lanes and the hold are kept, and every waiting sector-out is withdrawn. Every buffer is freed but that of the frame
being sent, which stays taken until it is sent (log entry 11). The frames that join are the POWER replies of the Key Store, the
frames of all jobs in ascending tag order, the FINAL checkpoint, the reply OK to a DEEP request, NOISE-HEALTH where the source
was HEALTHY, and POWER-STATE with cause SUPPLY. In DEEP it does nothing. -/
def Obligations.SupplyWarningEntersDeep : Prop :=
  ∀ s : State, s.inReset = false → s.KeysSettled → s.AuthoritiesSettled →
    (s.power = .deep → Answers .supplyWarning s s) ∧
      (s.power ≠ .deep → ∃ t jobs, Answers .supplyWarning s t ∧ t.power = .deep ∧ t.deepPending = none ∧
        t.noise = .stopped ∧ t.Bare ∧ s.Relocked t ∧ (∀ a, (s.auths.get a).CutAndSealed (t.auths.get a)) ∧
        t.laneQueue = [] ∧ t.workQueue = [] ∧ t.running = none ∧
        (∀ l, t.lanes.get l = if s.lanes.get l = .offline then .offline else .idle) ∧
        (∀ b, (∀ f, s.begun = some f → f.buffer ≠ some b) → t.buffer b = none) ∧
        (∀ b f, s.begun = some f → f.buffer = some b → b ∉ s.buffersQueued → t.buffer b = s.buffer b) ∧
        t.hold = s.hold ∧ t.ticks = s.ticks ∧ t.prov = s.prov ∧
        (s.JobsSettled → jobs = s.powerLeaves fun _ => true) ∧
        t.order = s.begun.toList ++ (s.waitingFrames.filter fun f => !f.isSector) ++
          s.owedReplies.map (Owed.frame .power t) ++ jobs ++ s.finalCheckpoint ++ s.deepReply .ok ++
          (if s.noise = .healthy then [.notice (.noiseHealth .stopped)] else []) ++ [.notice (.powerState .deep .supply)])

/-- DEEP_ENTRY, DRAIN_COMPLETE, JOB_LEAVE and JOB_ADMISSION, taken by themselves, do their part of an event where its condition
stands: the entry with no lane BUSY, every range relocked and OPEN authorities SEALED, blob and counter kept; a drain whose lane
count is 0, answering a purge; the leaving of a job in ENDING with no sector in a lane; the re-check of a WAITING job clear of
the window, admitted with its segments and JOB-ADMITTED, or removed with JOB-ENDED NO-KEY, LOCKED or SPLIT-LIMIT, the issue step
following. That the rows are taken by themselves is the model's choice (log entry 6). -/
def Parts.PartsOfEventsAreTaken : Prop :=
  ∀ s : State, s.inReset = false →
    (∀ num, s.deepPending = some num → (∀ l w, s.lanes.get l ≠ .busy w) →
      ∃ t front, Answers .deepEntry s t ∧ t.power = .deep ∧ t.deepPending = none ∧ s.Relocked t ∧
        t.order = front ++ [.notice (.powerState .deep .request)] ∧ replyTo .deep num .ok .none ∈ t.order ∧
        (s.running = none → (∀ a, t.auths.get a = (s.auths.get a).sealedAtEntry) ∧
          front = s.order ++ replyTo .deep num .ok .none ::
            if s.noise = .healthy then [.notice (.noiseHealth .stopped)] else [])) ∧
    (∀ k num, (s.slots.get k).state = .draining → (s.slots.get k).laneCount = 0 →
      let t : State := { s with slots := s.slots.set k KeySlot.initial }
      ((s.slots.get k).drain = some (.purge num) →
        Gives (.drainComplete k) s t [replyTo .purgeKey num .ok (.slot (t.slotReport k) none)]) ∧
      ((s.slots.get k).drain = some .retire → Gives (.drainComplete k) s t [])) ∧
    (∀ t j, s.jobs.get t = some j → j.state = .ending → ¬ s.sectorInLane j.uid →
      let gone : State := { s with jobs := s.jobs.set t none }
      Gives (.jobLeave t) s gone.issueStep.1 (j.leaveFrame t :: gone.issueStep.2)) ∧
    ∀ t j, s.jobs.get t = some j → j.state = .waiting → s.hold = false → s.meetsWindow j.first j.count = false →
      let meets := fun p : Nat → Prop => ∃ x, j.covers x ∧ p x
      let unkeyed := fun x => (s.ranges.get (s.lookup x)).active = none
      let blocked := fun x => (s.ranges.get (s.lookup x)).blocks j.direction = true
      let segments := s.resolve j.first j.count
      let off : State := { s with waiting := s.waiting.filter fun u => u ≠ t }
      let gone : State := { off with jobs := s.jobs.set t none }
      let removed := fun reason =>
        Gives (.jobAdmission t) s gone.issueStep.1 (.notice (.jobEnded t reason 0 0) :: gone.issueStep.2)
      (¬ meets unkeyed → ¬ meets blocked → segments.length ≤ 4 →
        Gives (.jobAdmission t) s
          { off with jobs := s.jobs.set t (some { j with
              state := .opened, segments := segments, age := 0, openTick := some s.ticks }) }
          [.notice (.jobAdmitted t segments.length)]) ∧
      (s.RangesSettled → j.first + j.count ≤ s.capacity → (meets unkeyed → removed .noKey) ∧
        (¬ meets unkeyed → meets blocked → removed .locked) ∧
        (¬ meets unkeyed → ¬ meets blocked → 4 < segments.length → removed .splitLimit))

/-- The re-evaluation of the waiting list, which RELEASE-HOLD, commits, collapses, the finish and ABANDON-SWEEP bring: with the
hold set nothing is done; else the WAITING jobs are re-checked one at a time in list order, each against the window and the
ranges as they stand (`Rechecked`), and their frames stand in that order. -/
def Parts.ReevaluationTakesListOrder : Prop :=
  ∀ s : State,
    (s.hold = true → s.reevaluate = (s, [])) ∧
      (s.hold = false → s.RangesSettled →
        (∀ t j, s.jobs.get t = some j → j.state = .waiting → j.first + j.count ≤ s.capacity) →
        ∃ t frames, s.Rechecks s.waiting t frames ∧ s.reevaluate = (t, frames))

/-- The parts of events taken by themselves (log entry 6), and the re-evaluation of the waiting list. -/
def Obligations.PartsOfEventsComplete : Prop :=
  Parts.PartsOfEventsAreTaken ∧ Parts.ReevaluationTakesListOrder

/-- ISSUE_STEP: with its conditions met, where the first LBA lies in an admitted job's span the sweep is blocked and issues
nothing; where all LBAs are issued the blocked field becomes no and nothing else happens; else the first pull begins at that
LBA, with the next number, and its SWEEP-PULL notice stands first; with a condition not met nothing happens. That the row is
taken by itself, at any moment, is the model's choice (log entry 6). -/
def Parts.IssueStepPullsFromTheCursor : Prop :=
  ∀ (w : Sweep) (s : State), s.inReset = false → s.sweep = some w →
    (w.state ≠ .running ∨ s.hold = true ∨ s.deepPending ≠ none ∨ w.limit ≤ w.outstanding ∨
        s.extentEnd w.range ≤ w.committed → Answers .issueStep s s) ∧
      (w.state = .running → s.hold = false → s.deepPending = none → w.outstanding < w.limit →
        w.committed < s.extentEnd w.range →
        (s.nextToIssue w = none → Answers .issueStep s { s with sweep := some { w with blocked := false } }) ∧
        ∀ x, s.nextToIssue w = some x →
          (s.inAdmittedSpan x = true → Answers .issueStep s { s with sweep := some { w with blocked := true } }) ∧
          (s.inAdmittedSpan x = false → ∃ t v more frames, Answers .issueStep s t ∧ t.sweep = some v ∧
            v.pulls = w.pulls ++ Pull.issue s.nextUid s.nextPull x (s.runEnd w x - x) :: more ∧
            t.order = s.order ++ .notice (.sweepPull s.nextPull w.range x (s.runEnd w x - x)) :: frames))

/-- The issue step, wherever an event takes it: with a condition of R133 not met it does nothing; else it clears the blocked
field and forms pulls one after another (`Issues`), each from the first LBA of the extent at or above the issued cursor to the
least of that LBA + 8, that LBA + the room below the limit, the next boundary and the next admitted span, until the window is
full, all is issued, or an admitted job's span blocks it; its frames are the SWEEP-PULL notices of these pulls, in order. That
ISSUE_STEP is taken by itself is the model's choice (log entry 6); a pull's `uid` is the model's own (log entry 4). -/
def Parts.IssueStepFormsPulls : Prop :=
  ∀ s : State,
    (s.inReset = false → Gives .issueStep s s.issueStep.1 s.issueStep.2) ∧ (s.sweep = none → s.issueStep = (s, [])) ∧
      ∀ w, s.sweep = some w →
        (w.state ≠ .running ∨ s.hold = true ∨ s.deepPending ≠ none ∨ w.limit ≤ w.outstanding ∨
          s.extentEnd w.range ≤ w.committed → s.issueStep = (s, [])) ∧
        (s.RangesSettled → w.limit ≤ 64 → w.state = .running → s.hold = false → s.deepPending = none →
          w.outstanding < w.limit → w.committed < s.extentEnd w.range →
          ∃ pulls t, ({ s with sweep := some { w with blocked := false } } : State).Issues pulls t ∧
            s.issueStep = (t, pulls.map fun p => .notice (.sweepPull p.number w.range p.first p.count)))

/-- SWEEP_PAUSE_COMPLETE: a sweep in PAUSING with an empty list that is not complete becomes PAUSED with its notice. That the
row is taken by itself is the model's choice (log entry 6). -/
def Parts.PausingSweepsPause : Prop :=
  ∀ (w : Sweep) (s : State), s.inReset = false → s.deepPending = none → s.sweep = some w → w.state = .pausing →
    w.pulls = [] → w.committed < s.extentEnd w.range →
    Gives .sweepPauseComplete s { s with sweep := some { w with state := .paused } }
      [.notice (.sweepPaused w.range w.committed none none)]

/-- The issue step, by itself (log entry 6) and wherever it is taken, and the end of a pause taken by itself (log entry 6). -/
def Obligations.IssueStepsAndPauses : Prop :=
  Parts.IssueStepPullsFromTheCursor ∧ Parts.IssueStepFormsPulls ∧ Parts.PausingSweepsPause

/-! ### What no command does -/

/-- The provisioning record is written once, and by PROVISION alone: while it is present, nothing but a power-on or line reset
changes it, and while it is absent nothing but PROVISION writes it. -/
def Parts.ProvisioningIsWriteOnce : Prop :=
  (∀ (c : Instr) (p : Provisioning) (s t : State), Answers c s t → s.prov = some p → ¬ c.isHardReset → t.prov = some p) ∧
    ∀ (c : Instr) (s t : State), Answers c s t → s.prov = none → t.prov ≠ none → c.request = some .provision

/-- The counter changes by 1 and in ACTIVE, by TICK and the rows that name a carry, which are its advances, and at a power-on or
line reset; the interval index in nothing but SET-INTERVAL and these resets; profiles and streams in nothing but SET-PROFILE and
SET-STREAM and these. -/
def Parts.SingleWriters : Prop :=
  ∀ (c : Instr) (s t : State), Answers c s t → ¬ c.isHardReset →
    (t.ticks = s.ticks ∨ t.ticks = s.ticks + 1 ∧ s.power = .active ∧ c.isAdvance) ∧
      (t.interval ≠ s.interval → c.request = some .setInterval) ∧
      (t.profiles ≠ s.profiles → c.request = some .setProfile) ∧ (t.streams ≠ s.streams → c.request = some .setStream)

/-- The hold is set by a failed self-check alone, which takes a lane OFFLINE in the same event, and cleared by RELEASE-HOLD
and by a power-on or line reset alone; an OFFLINE lane comes back by such a reset alone. -/
def Parts.HoldAndLanesFollowFaults : Prop :=
  ∀ (c : Instr) (s t : State), Answers c s t → ¬ c.isHardReset →
    (s.hold = false → t.hold = true →
      ∃ lane e1 e2, c = .laneCompletion lane e1 e2 ∧ s.lanes.get lane ≠ .offline ∧ t.lanes.get lane = .offline) ∧
      (s.hold = true → t.hold = false → c.request = some .releaseHold) ∧
      ∀ l, s.lanes.get l = .offline → t.lanes.get l = .offline

/-- While the hold is set no job is accepted, no WAITING job becomes OPEN and no pull is issued. -/
def Parts.HoldSuspendsAdmissionAndIssue : Prop :=
  ∀ (c : Instr) (s t : State), Answers c s t → s.hold = true → t.hold = true →
    t.nextUid = s.nextUid ∧
      ∀ tag j k, s.jobs.get tag = some j → j.state = .waiting → t.jobs.get tag = some k → k.state ≠ .opened

/-- What sets and clears the hold and takes lanes out of service, and what the hold suspends. -/
def Obligations.HoldFollowsFaultsAndSuspends : Prop :=
  Parts.HoldAndLanesFollowFaults ∧ Parts.HoldSuspendsAdmissionAndIssue

/-- No event but a power-on or line reset loses a reply or a notice, or the frame being sent: what stays of the transmit order
keeps its order, the head while it is being sent among it, and new frames join behind. Its sending alone takes a frame
away otherwise. -/
def Obligations.RepliesAndNoticesAreNotWithdrawn : Prop :=
  ∀ (c : Instr) (s t : State), Answers c s t → ¬ c.isHardReset → c ≠ .frameSent → s.sendingHead →
    ∃ kept new, t.order = kept ++ new ∧ kept.Sublist s.order ∧
      kept.filter (fun f => !f.isSector) = s.order.filter (fun f => !f.isSector) ∧
      (s.sending.isSome = true → kept.head? = s.order.head? ∧ t.sending = s.sending)

/-- Key material enters a slot by the wrap unit's completions alone; every other command leaves it as it is or erases it. -/
def Parts.KeysEnterByTheWrapUnitAlone : Prop :=
  ∀ (c : Instr) (k : SlotNo) (s t : State), Answers c s t → c ≠ .unwrapComplete → c ≠ .generationComplete →
    (t.slots.get k).key = (s.slots.get k).key ∨ (t.slots.get k).key = none

/-- The provisioning record, the counter, the interval index, profiles, streams and key material each change by their own
commands alone. -/
def Obligations.OneWriterEach : Prop :=
  Parts.ProvisioningIsWriteOnce ∧ Parts.SingleWriters ∧ Parts.KeysEnterByTheWrapUnitAlone

/-- An authority that is BARRED stays BARRED until a power-on reset. -/
def Parts.BarredLastsUntilPowerOn : Prop :=
  ∀ (c : Instr) (a : AuthNo) (s t : State), s.AuthoritiesSettled → Answers c s t → c ≠ .powerOnReset →
    (s.auths.get a).state = .barred → (t.auths.get a).state = .barred

/-- A count: over each command but a power-on or line reset, its end, and a sending, the replies in the transmit order and those
owed grow together by one for a request, and by none for anything else. Which reply answers which request is said with each
request. -/
def Obligations.EveryRequestGetsOneReply : Prop :=
  ∀ (c : Instr) (s t : State), s.DeepSettled → s.inReset = false → Answers c s t → c.wellFormed = true →
    ¬ c.isHardReset → c ≠ .frameSent → c ≠ .resetEnd →
    t.repliesWaiting + t.repliesOwed =
      s.repliesWaiting + s.repliesOwed + (if c.requestNumber.isSome then 1 else 0)

/-! ### Invariants that every step keeps -/

/-- With no lane in service the hold is set; a frame being sent is the head of the transmit order; no OPEN job and no pull has
an age above 2; the Lane Queue stands in arrival order. -/
def Parts.QuietInvariantsAreKept : Prop :=
  KeptByEveryStep State.heldWithoutLanes ∧ KeptByEveryStep State.sendingHead ∧ KeptByEveryStep State.agesBounded ∧
    KeptByEveryStep State.arrivalsRise

/-- The noise source is STOPPED exactly in DOZE and DEEP, the mark stands in ACTIVE alone, and a part held in reset is silent
and ACTIVE. -/
def Parts.PowerStaysSettled : Prop := KeptByEveryStep State.PowerSettled

/-- The waiting list always holds exactly the tags of the WAITING jobs, each once. -/
def Parts.WaitingListStaysExact : Prop := KeptByEveryStep State.waitingListed

/-- The invariants of lanes and hold, of the frame being sent, of ages, of the Lane Queue, of the power state and of the
waiting list. -/
def Obligations.SmallInvariantsAreKept : Prop :=
  Parts.QuietInvariantsAreKept ∧ Parts.PowerStaysSettled ∧ Parts.WaitingListStaysExact

/-- A job in ENDING always has a sector in a lane, jobs are told apart, and only ENDING jobs owe a reply. -/
def Obligations.EndingJobsHaveLaneSectors : Prop := KeptByEveryStep State.JobsSettled

/-- Each authority holds what its state says, and is CHECKING exactly while its one check or creation is in the Key Work
Queue, which never holds more than 4. -/
def Parts.AuthoritiesStaySettled : Prop := KeptByEveryStep State.AuthoritiesSettled

/-- The authority records keep their shape, and BARRED lasts until a power-on reset. -/
def Obligations.AuthoritiesStaySettledAndBarred : Prop :=
  Parts.AuthoritiesStaySettled ∧ Parts.BarredLastsUntilPowerOn

/-- Each slot holds what its state says and is being filled exactly while its one operation is in the Key Work Queue, where
none is while the part is entering DEEP; every slot that a range names is READY; a range has a pending slot exactly while the
sweep names it. -/
def Parts.SlotsAndRangesStaySettled : Prop := KeptByEveryStep State.KeysSettled

/-- Every step keeps the place of each accepted sector: each is in the Lane Queue, in a lane, in a reorder set or in the
transmit order alone, in a buffer of its kind that is AWAITING, IN-LANE or FINISHED accordingly, and no other buffer is taken;
each slot's lane count is the number of sectors counted against it, 0 where the slot holds no key, and no slot stays DRAINING at
0. The premises are invariants that every step keeps: of segments, Lane Queue, waiting list and the frame being sent. Owners are
told apart by the model's own numbers (log entry 4). -/
def Parts.SectorsStayInOnePlace : Prop :=
  ∀ s t : State, s.SegmentsSettled → s.arrivalsRise → s.waitingListed → s.sendingHead → s.SectorsSettled →
    step s = .next t → t.SectorsSettled

/-- Slots, ranges and the Key Work Queue agree, and so do lane counts, buffers and the sectors in the part. -/
def Obligations.SlotsAndRangesStaySettled : Prop :=
  Parts.SlotsAndRangesStaySettled ∧ Parts.SectorsStayInOnePlace

/-- The ranges stay disjoint and on the drive; the sweep's cursors, limit and pulls keep their bounds and cover the window;
and no LBA lies both in an outstanding pull and in the span of an OPEN job. -/
def Obligations.SweepKeepsClearOfOpenJobs : Prop := KeptByEveryStep State.SweepSettled

/-- While entering DEEP the part winds down and a lane is BUSY, so that it is in DEEP as soon as none is; and in DEEP it holds
no job, no sweep, no key and no OPEN authority. -/
def Obligations.DeepHoldsNothing : Prop := KeptByEveryStep State.DeepSettled

/-- Every segment of an OPEN job lies in the range it names, and its slot is one that the range names, hence READY: the old
key at and above the cursor of a sweep, the new one below it. -/
def Obligations.SegmentsStayKeyed : Prop := KeptByEveryStep State.SegmentsSettled

/-! ### Ranges and the cipher -/

/-- The span walk: ascending maximal runs that cover the span, each with the range that every one of its LBAs looks up to, and
each at least one LBA. -/
def Obligations.SpanWalkCoversTheSpan : Prop :=
  ∀ (first count : Nat) (s : State), s.RangesSettled → first + count ≤ s.capacity →
    let pieces := s.spanWalk first count
    (∀ x, first ≤ x ∧ x < first + count ↔ ∃ p ∈ pieces, p.first ≤ x ∧ x < p.first + p.count) ∧
      (∀ p ∈ pieces, 1 ≤ p.count ∧ ∀ x, p.first ≤ x → x < p.first + p.count → s.lookup x = p.range) ∧
      (∀ before p q after, pieces = before ++ p :: q :: after → p.first + p.count = q.first ∧ p.range ≠ q.range)

/-- Deciphering a sector under the key, LBA and format that enciphered it gives it back, and enciphering after deciphering
too; a sweep sector re-ciphered from the old key is what the new key would have stored; lengths are kept. -/
def Parts.CipherDirectionsUndoEachOther : Prop :=
  ∀ (key oldKey newKey : KeyMaterial) (d : DataSize) (f : Format) (lba : Nat) (bytes : List Byte), f.legal d = true →
    bytes.length = f.sectorLength d →
    cipherSector .decipher key d f lba (cipherSector .encipher key d f lba bytes) = bytes ∧
      cipherSector .encipher key d f lba (cipherSector .decipher key d f lba bytes) = bytes ∧
      recipherSector oldKey newKey d f lba (cipherSector .encipher oldKey d f lba bytes) =
        cipherSector .encipher newKey d f lba bytes ∧
      ∀ dir, (cipherSector dir key d f lba bytes).length = bytes.length

/-- The self-check passes exactly when the lane's main path was right in block 0 of unit 0, in each pass; and under PASS the
metadata leaves as it came. -/
def Parts.SelfCheckSeesBlockZero : Prop :=
  ∀ (task : LaneTask) (key : KeyMaterial) (dir : Direction) (d : DataSize) (f : Format) (lba : Nat) (e1 e2 : Block)
    (bytes : List Byte), f.legal d = true → bytes.length = f.sectorLength d →
    (task.selfCheck d f lba e1 e2 bytes = true ↔ e1 = 0 ∧ ((∃ o n, task = .recipher o n) → e2 = 0)) ∧
      (f.handling = .pass → (cipherSector dir key d f lba bytes).drop d.bytes = bytes.drop d.bytes)

/-- Under one format, distinct sectors and units have distinct data-unit numbers, all below 2^51, so that distinct units have
distinct tweak input blocks. -/
def Parts.DataUnitNumbersAreDistinct : Prop :=
  ∀ (d : DataSize) (f : Format) (x y u v : Nat), f.legal d = true → x < 2 ^ 48 → y < 2 ^ 48 → u < unitsPerSector d f →
    v < unitsPerSector d f →
    unitNumber (unitsPerSector d f) x u < 2 ^ 51 ∧
      (tweakInput (unitNumber (unitsPerSector d f) x u) = tweakInput (unitNumber (unitsPerSector d f) y v) →
        x = y ∧ u = v)

/-- The two directions of the cipher undo each other, the self-check sees block 0, and data-unit numbers are distinct. -/
def Obligations.CipherUndoesItselfAndIsChecked : Prop :=
  Parts.CipherDirectionsUndoEachOther ∧ Parts.SelfCheckSeesBlockZero ∧ Parts.DataUnitNumbersAreDistinct
end

