-- ==== Sys2Proof/Laws/Aes.lean ====
section
/-! SUPPORT. The block cipher's two directions undo each other under every key. -/

namespace Sys2Proof.Machine

/-! ### Bytes and columns -/

theorem byte_forall {p : Byte → Prop} (h : ∀ i : Fin 256, p (BitVec.ofFin i)) (b : Byte) : p b := h b.toFin

theorem aesInvSub_aesSub (b : Byte) : aesInvSub (aesSub b) = b :=
  byte_forall (p := fun b => aesInvSub (aesSub b) = b) (by decide +kernel) b

theorem aesSub_aesInvSub (b : Byte) : aesSub (aesInvSub b) = b :=
  byte_forall (p := fun b => aesSub (aesInvSub b) = b) (by decide +kernel) b

/-- Multiplication by x is linear. -/
theorem aesTimes2_xor (a b : Byte) : aesTimes2 (a ^^^ b) = aesTimes2 a ^^^ aesTimes2 b := by
  have h : ∀ x y : Bool, (if (x ^^ y) = true then (0x1b : Byte) else 0) =
      (if x = true then 0x1b else 0) ^^^ (if y = true then 0x1b else 0) := by decide
  unfold aesTimes2
  rw [BitVec.msb_xor, h, BitVec.shiftLeft_xor_distrib]
  ac_rfl

theorem AesColumn.add_add (a k : AesColumn) : (a.add k).add k = a := by
  simp [AesColumn.add]

theorem AesState.add_add (s k : AesState) : (s.add k).add k = s := by
  simp [AesState.add, AesColumn.add_add]

theorem AesColumn.map_map_inv {f g : Byte → Byte} (h : ∀ b, g (f b) = b) (c : AesColumn) : (c.map f).map g = c := by
  simp [AesColumn.map, h]

/-- A map of bytes that keeps sums. -/
def Additive (f : Byte → Byte) : Prop := ∀ a b, f (a ^^^ b) = f a ^^^ f b

theorem Additive.comp {f g : Byte → Byte} (hf : Additive f) (hg : Additive g) : Additive fun b => f (g b) := fun a b => by
  show f (g (a ^^^ b)) = f (g a) ^^^ f (g b)
  rw [hg, hf]

theorem Additive.sum {f g : Byte → Byte} (hf : Additive f) (hg : Additive g) : Additive fun b => f b ^^^ g b := fun a b => by
  show f (a ^^^ b) ^^^ g (a ^^^ b) = (f a ^^^ g a) ^^^ (f b ^^^ g b)
  rw [hf, hg]
  ac_rfl

theorem additive_id : Additive fun b => b := fun _ _ => rfl
theorem additive_times2 : Additive aesTimes2 := aesTimes2_xor
theorem additive_times4 : Additive fun b => aesTimes2 (aesTimes2 b) := additive_times2.comp additive_times2
theorem additive_times8 : Additive fun b => aesTimes2 (aesTimes2 (aesTimes2 b)) := additive_times2.comp additive_times4
theorem additive_times3 : Additive aesTimes3 := additive_times2.sum additive_id
theorem additive_times9 : Additive aesTimes9 := additive_times8.sum additive_id
theorem additive_times11 : Additive aesTimes11 := (additive_times8.sum additive_times2).sum additive_id
theorem additive_times13 : Additive aesTimes13 := (additive_times8.sum additive_times4).sum additive_id
theorem additive_times14 : Additive aesTimes14 := (additive_times8.sum additive_times4).sum additive_times2

/-- A row of a column mix: four additive products, summed. -/
theorem row_add {f g h k : Byte → Byte} (hf : Additive f) (hg : Additive g) (hh : Additive h) (hk : Additive k)
    (a b c d a' b' c' d' : Byte) :
    f (a ^^^ a') ^^^ g (b ^^^ b') ^^^ h (c ^^^ c') ^^^ k (d ^^^ d') =
      (f a ^^^ g b ^^^ h c ^^^ k d) ^^^ (f a' ^^^ g b' ^^^ h c' ^^^ k d') := by
  rw [hf, hg, hh, hk]
  ac_rfl

theorem aesMixColumn_add (c d : AesColumn) : aesMixColumn (c.add d) = (aesMixColumn c).add (aesMixColumn d) := by
  have i := additive_id
  have t := additive_times2
  have u := additive_times3
  simp only [aesMixColumn, AesColumn.add, AesColumn.mk.injEq]
  exact ⟨row_add t u i i .., row_add i t u i .., row_add i i t u .., row_add u i i t ..⟩

theorem aesInvMixColumn_add (c d : AesColumn) :
    aesInvMixColumn (c.add d) = (aesInvMixColumn c).add (aesInvMixColumn d) := by
  have m := additive_times9
  have n := additive_times11
  have p := additive_times13
  have q := additive_times14
  simp only [aesInvMixColumn, AesColumn.add, AesColumn.mk.injEq]
  exact ⟨row_add q n p m .., row_add m q n p .., row_add p m q n .., row_add n p m q ..⟩

/-- A column is the sum of its four bytes, each in its own row. -/
theorem AesColumn.split (c : AesColumn) :
    c = (((⟨c.r0, 0, 0, 0⟩ : AesColumn).add ⟨0, c.r1, 0, 0⟩).add ⟨0, 0, c.r2, 0⟩).add ⟨0, 0, 0, c.r3⟩ := by
  simp [AesColumn.add]

/-- The two column mixes undo each other. -/
theorem aesInvMixColumn_aesMixColumn (c : AesColumn) : aesInvMixColumn (aesMixColumn c) = c := by
  have h0 := byte_forall (p := fun b => aesInvMixColumn (aesMixColumn ⟨b, 0, 0, 0⟩) = ⟨b, 0, 0, 0⟩) (by decide +kernel)
  have h1 := byte_forall (p := fun b => aesInvMixColumn (aesMixColumn ⟨0, b, 0, 0⟩) = ⟨0, b, 0, 0⟩) (by decide +kernel)
  have h2 := byte_forall (p := fun b => aesInvMixColumn (aesMixColumn ⟨0, 0, b, 0⟩) = ⟨0, 0, b, 0⟩) (by decide +kernel)
  have h3 := byte_forall (p := fun b => aesInvMixColumn (aesMixColumn ⟨0, 0, 0, b⟩) = ⟨0, 0, 0, b⟩) (by decide +kernel)
  conv_lhs => rw [c.split]
  simp only [aesMixColumn_add, aesInvMixColumn_add, h0, h1, h2, h3]
  exact c.split.symm

theorem aesMixColumn_aesInvMixColumn (c : AesColumn) : aesMixColumn (aesInvMixColumn c) = c := by
  have h0 := byte_forall (p := fun b => aesMixColumn (aesInvMixColumn ⟨b, 0, 0, 0⟩) = ⟨b, 0, 0, 0⟩) (by decide +kernel)
  have h1 := byte_forall (p := fun b => aesMixColumn (aesInvMixColumn ⟨0, b, 0, 0⟩) = ⟨0, b, 0, 0⟩) (by decide +kernel)
  have h2 := byte_forall (p := fun b => aesMixColumn (aesInvMixColumn ⟨0, 0, b, 0⟩) = ⟨0, 0, b, 0⟩) (by decide +kernel)
  have h3 := byte_forall (p := fun b => aesMixColumn (aesInvMixColumn ⟨0, 0, 0, b⟩) = ⟨0, 0, 0, b⟩) (by decide +kernel)
  conv_lhs => rw [c.split]
  simp only [aesMixColumn_add, aesInvMixColumn_add, h0, h1, h2, h3]
  exact c.split.symm

/-! ### States, rounds, blocks -/

theorem AesState.map_map_inv {f g : AesColumn → AesColumn} (h : ∀ c, g (f c) = c) (s : AesState) :
    (s.map f).map g = s := by
  simp [AesState.map, h]

theorem aesInvShiftRows_aesShiftRows (s : AesState) : aesInvShiftRows (aesShiftRows s) = s := rfl

theorem aesShiftRows_aesInvShiftRows (s : AesState) : aesShiftRows (aesInvShiftRows s) = s := rfl

theorem aesInvRounds_aesRounds (ks : List AesState) (s : AesState) : aesInvRounds ks (aesRounds ks s) = s := by
  have sub := AesState.map_map_inv (AesColumn.map_map_inv aesInvSub_aesSub)
  match ks with
  | [] => rfl
  | [k] => simp only [aesRounds, aesInvRounds, AesState.add_add, aesInvShiftRows_aesShiftRows, sub]
  | k :: l :: ks =>
    have ih := fun s => aesInvRounds_aesRounds (l :: ks) s
    rw [aesRounds, aesInvRounds, ih]
    · simp only [AesState.add_add, AesState.map_map_inv aesInvMixColumn_aesMixColumn, aesInvShiftRows_aesShiftRows, sub]
    · simp
    · simp

theorem aesRounds_aesInvRounds (ks : List AesState) (s : AesState) : aesRounds ks (aesInvRounds ks s) = s := by
  have sub := AesState.map_map_inv (AesColumn.map_map_inv aesSub_aesInvSub)
  match ks with
  | [] => rfl
  | [k] => simp only [aesRounds, aesInvRounds, AesState.add_add, aesShiftRows_aesInvShiftRows, sub]
  | k :: l :: ks =>
    have ih := fun s => aesRounds_aesInvRounds (l :: ks) s
    rw [aesRounds, aesInvRounds]
    · simp only [sub, aesShiftRows_aesInvShiftRows, AesState.map_map_inv aesMixColumn_aesInvMixColumn, AesState.add_add]
      exact ih s
    · simp
    · simp

theorem aesColumnBits_byteAt {w : Nat} (i : Nat) (x : BitVec w) :
    aesColumnBits (aesColumnAt i x) = x.extractLsb' (8 * i) 32 := by
  apply BitVec.eq_of_getLsbD_eq
  intro j hj
  simp only [aesColumnBits, aesColumnAt, byteAt, BitVec.getLsbD_append, BitVec.getLsbD_extractLsb']
  rw [decide_eq_true hj, Bool.true_and]
  split_ifs <;> (rw [decide_eq_true (by omega), Bool.true_and]; try (congr 1; omega))

theorem aesToBlock_aesOfBlock (x : Block) : aesToBlock (aesOfBlock x) = x := by
  apply BitVec.eq_of_getLsbD_eq
  intro j hj
  simp only [aesToBlock, aesOfBlock, aesColumnBits_byteAt, BitVec.getLsbD_append, BitVec.getLsbD_extractLsb']
  split_ifs <;> (rw [decide_eq_true (by omega), Bool.true_and]; congr 1; omega)

theorem byteAt_aesColumnBits (c : AesColumn) :
    byteAt 0 (aesColumnBits c) = c.r0 ∧ byteAt 1 (aesColumnBits c) = c.r1 ∧ byteAt 2 (aesColumnBits c) = c.r2 ∧
      byteAt 3 (aesColumnBits c) = c.r3 := by
  refine ⟨?_, ?_, ?_, ?_⟩ <;>
    (apply BitVec.eq_of_getLsbD_eq
     intro j hj
     simp only [aesColumnBits, byteAt, BitVec.getLsbD_append, BitVec.getLsbD_extractLsb']
     rw [decide_eq_true hj, Bool.true_and]
     split_ifs <;> first | omega | (congr 1; omega))

/-- Byte `i` of a part that begins at byte `m`. -/
theorem byteAt_extract {w : Nat} (x : BitVec w) (m i : Nat) (h : i < 4) :
    byteAt i (x.extractLsb' (8 * m) 32) = byteAt (m + i) x := by
  apply BitVec.eq_of_getLsbD_eq
  intro j hj
  simp only [byteAt, BitVec.getLsbD_extractLsb']
  rw [decide_eq_true hj, Bool.true_and, decide_eq_true (by omega), Bool.true_and, Bool.true_and]
  congr 1
  omega

theorem aesToBlock_column (s : AesState) :
    (aesToBlock s).extractLsb' (8 * 0) 32 = aesColumnBits s.c0 ∧ (aesToBlock s).extractLsb' (8 * 4) 32 = aesColumnBits s.c1 ∧
      (aesToBlock s).extractLsb' (8 * 8) 32 = aesColumnBits s.c2 ∧
      (aesToBlock s).extractLsb' (8 * 12) 32 = aesColumnBits s.c3 := by
  refine ⟨?_, ?_, ?_, ?_⟩ <;>
    (apply BitVec.eq_of_getLsbD_eq
     intro j hj
     simp only [aesToBlock, BitVec.getLsbD_append, BitVec.getLsbD_extractLsb']
     rw [decide_eq_true hj, Bool.true_and]
     split_ifs <;> first | omega | (congr 1; omega))

theorem aesColumnAt_aesToBlock (s : AesState) (m : Nat) (c : AesColumn)
    (h : (aesToBlock s).extractLsb' (8 * m) 32 = aesColumnBits c) : aesColumnAt m (aesToBlock s) = c := by
  obtain ⟨h0, h1, h2, h3⟩ := byteAt_aesColumnBits c
  have e := fun i hi => byteAt_extract (aesToBlock s) m i hi
  rw [h] at e
  have e0 := e 0 (by decide)
  have e1 := e 1 (by decide)
  have e2 := e 2 (by decide)
  have e3 := e 3 (by decide)
  rw [h0, Nat.add_zero] at e0
  rw [h1] at e1
  rw [h2] at e2
  rw [h3] at e3
  rw [aesColumnAt, ← e0, ← e1, ← e2, ← e3]

theorem aesOfBlock_aesToBlock (s : AesState) : aesOfBlock (aesToBlock s) = s := by
  obtain ⟨h0, h1, h2, h3⟩ := aesToBlock_column s
  rw [aesOfBlock, aesColumnAt_aesToBlock s 0 _ h0, aesColumnAt_aesToBlock s 4 _ h1, aesColumnAt_aesToBlock s 8 _ h2,
    aesColumnAt_aesToBlock s 12 _ h3]

/-- E and D undo each other (7.3). -/
theorem blockDecipher_blockEncipher (key : BitVec 256) (x : Block) : blockDecipher key (blockEncipher key x) = x := by
  unfold blockDecipher blockEncipher
  split
  · rfl
  · rw [aesOfBlock_aesToBlock, aesInvRounds_aesRounds, AesState.add_add, aesToBlock_aesOfBlock]

theorem blockEncipher_blockDecipher (key : BitVec 256) (x : Block) : blockEncipher key (blockDecipher key x) = x := by
  unfold blockDecipher blockEncipher
  split
  · rfl
  · rw [aesOfBlock_aesToBlock, AesState.add_add, aesRounds_aesInvRounds, aesToBlock_aesOfBlock]

end Sys2Proof.Machine
end

