-- ==== Sys2Proof/Laws/Blobs.lean ====
section
/-! SUPPORT. What the wrap's bookkeeping gives: values that were not used before, and the opening of the blob made last. -/

namespace Sys2Proof.Machine

variable {w : Nat}

/-- The values that `firstUnused` tries: where its answer is used, all of them are. -/
theorem firstUnused_mem (used : List (BitVec w)) :
    ∀ (n : Nat) (x : BitVec w), firstUnused used n x ∈ used → ∀ i ≤ n, x + BitVec.ofNat w i ∈ used
  | 0, x, h, i, hi => by
    obtain rfl : i = 0 := Nat.le_zero.mp hi
    simpa [firstUnused] using h
  | n + 1, x, h, i, hi => by
    by_cases hx : x ∈ used
    · cases i with
      | zero => simpa using hx
      | succ i =>
        have h1 : firstUnused used n (x + 1) ∈ used := by simpa [firstUnused, hx] using h
        have h2 := firstUnused_mem used n (x + 1) h1 i (by omega)
        have e : x + 1 + BitVec.ofNat w i = x + BitVec.ofNat w (i + 1) := by
          rw [BitVec.ofNat_add, BitVec.add_assoc, BitVec.add_comm (BitVec.ofNat w i)]
          rfl
        rwa [e] at h2
    · simp [firstUnused, hx] at h

/-- What `unusedFrom` gives is not used, where fewer values are used than the width has. -/
theorem unusedFrom_not_mem (used : List (BitVec w)) (x : BitVec w) (h : used.length < 2 ^ w) :
    unusedFrom used x ∉ used := by
  intro hm
  have hall := firstUnused_mem used used.length x hm
  have hsub : (Finset.range (used.length + 1)).image (fun i => x + BitVec.ofNat w i) ⊆ used.toFinset := by
    intro y hy
    obtain ⟨i, hi, rfl⟩ := Finset.mem_image.mp hy
    exact List.mem_toFinset.mpr (hall i (by simpa [Nat.lt_succ_iff] using hi))
  have hcard := Finset.card_le_card hsub
  rw [Finset.card_image_of_injOn, Finset.card_range] at hcard
  · have := List.toFinset_card_le used
    omega
  · intro i hi j hj e
    simp only [Finset.coe_range, Set.mem_Iio] at hi hj
    have e' : BitVec.ofNat w i = BitVec.ofNat w j := by simpa using e
    have := congrArg BitVec.toNat e'
    rw [BitVec.toNat_ofNat, BitVec.toNat_ofNat, Nat.mod_eq_of_lt (by omega), Nat.mod_eq_of_lt (by omega)] at this
    exact this

/-- The ledgers hold at most 2^64 blobs more than were made since the model began. -/
theorem State.madeVerifiers_length_le (s : State) : s.madeVerifiers.length ≤ s.verifierLog.length + 2 ^ 64 := by
  rw [State.madeVerifiers, List.length_append]
  exact Nat.add_le_add_left (List.length_take_le ..) _

theorem State.madeKeys_length_le (s : State) : s.madeKeys.length ≤ s.keyLog.length + 2 ^ 64 := by
  rw [State.madeKeys, List.length_append]
  exact Nat.add_le_add_left (List.length_take_le ..) _

/-- Opening a verifier blob that the newest entry of the ledger has. -/
theorem State.openVerifier_newest (s : State) (m : MadeVerifier) (rest : List MadeVerifier)
    (h : s.verifierLog = m :: rest) : s.openVerifier m.auth m.cred m.blob = some m.key := by
  simp [State.openVerifier, State.madeVerifiers, h]

/-- Opening a key blob that the newest entry of the ledger has. -/
theorem State.openKeyBlob_newest (s : State) (m : MadeKey) (rest : List MadeKey) (h : s.keyLog = m :: rest) :
    s.openKeyBlob m.auth m.authKey m.blob = some m.key := by
  simp [State.openKeyBlob, State.madeKeys, h]

end Sys2Proof.Machine
end

