-- ==== Sys2Proof/Laws/Bytes.lean ====
section
/-! SUPPORT. What the little-endian fields and the envelope give. -/

namespace Sys2Proof.Machine

@[simp] theorem leBytes_length (n v : Nat) : (leBytes n v).length = n := by
  induction n generalizing v with
  | zero => rfl
  | succ n ih => simp [leBytes, ih]

@[simp] theorem leOf_length {w : Nat} (n : Nat) (v : BitVec w) : (leOf n v).length = n := leBytes_length n _

/-- Reading `n` bytes of a number gives it modulo 256^n. -/
theorem leNat_leBytes (n v : Nat) : leNat (leBytes n v) = v % 256 ^ n := by
  induction n generalizing v with
  | zero => simp [leBytes, leNat, Nat.mod_one]
  | succ n ih =>
    rw [leBytes, leNat, ih, BitVec.toNat_ofNat, show 256 ^ (n + 1) = 256 * 256 ^ n from Nat.pow_succ', Nat.mod_mul]

theorem leNat_lt (l : List Byte) : leNat l < 256 ^ l.length := by
  induction l with
  | nil => simp [leNat]
  | cons b l ih =>
    rw [leNat, List.length_cons, Nat.pow_succ]
    have hb := b.isLt
    omega

/-- The bytes of the number that bytes spell are those bytes. -/
theorem leBytes_leNat (l : List Byte) : leBytes l.length (leNat l) = l := by
  induction l with
  | nil => rfl
  | cons b l ih =>
    have hb := b.isLt
    rw [List.length_cons, leBytes, leNat]
    congr 1
    · rw [← BitVec.toNat_inj, BitVec.toNat_ofNat]
      omega
    · rw [show (b.toNat + 256 * leNat l) / 256 = leNat l by omega, ih]

/-- A field of `n` bytes holds a bit vector of 8n bits whole. -/
theorem leTo_leOf (n : Nat) (v : BitVec (8 * n)) : leTo (8 * n) (leOf n v) = v := by
  rw [leTo, leOf, leNat_leBytes, ← BitVec.toNat_inj, BitVec.toNat_ofNat, show (256 : Nat) = 2 ^ 8 from rfl, ← Nat.pow_mul,
    Nat.mod_mod, Nat.mod_eq_of_lt v.isLt]

/-- Bytes read as a bit vector of their own width and written again are those bytes. -/
theorem leOf_leTo {w : Nat} (l : List Byte) (h : w = 8 * l.length) : leOf l.length (leTo w l) = l := by
  subst h
  rw [leOf, leTo, BitVec.toNat_ofNat, Nat.mod_eq_of_lt, leBytes_leNat]
  have := leNat_lt l
  rwa [show (256 : Nat) = 2 ^ 8 from rfl, ← Nat.pow_mul] at this

theorem envelope_length (kind : Byte) (body : List Byte) : (envelope kind body).length = body.length + 7 := by
  simp [envelope]
  omega

end Sys2Proof.Machine
end

