-- ==== Sys2Proof/Laws/State.lean ====
section
/-! SUPPORT. One lemma per field for each of the updates that every event uses: frames joining the transmit order, the end of
a received frame, and changes of one register group. -/

namespace Sys2Proof.Machine

/-! ### Frames join the transmit order -/

@[simp] theorem State.emit_order (s : State) (l : List OutFrame) : (s.emit l).order = s.order ++ l := rfl
@[simp] theorem State.emit_inReset (s : State) (l : List OutFrame) : (s.emit l).inReset = s.inReset := rfl
@[simp] theorem State.emit_receiving (s : State) (l : List OutFrame) : (s.emit l).receiving = s.receiving := rfl
@[simp] theorem State.emit_sending (s : State) (l : List OutFrame) : (s.emit l).sending = s.sending := rfl
@[simp] theorem State.emit_jobPool (s : State) (l : List OutFrame) : (s.emit l).jobPool = s.jobPool := rfl
@[simp] theorem State.emit_sweepPool (s : State) (l : List OutFrame) : (s.emit l).sweepPool = s.sweepPool := rfl
@[simp] theorem State.emit_profiles (s : State) (l : List OutFrame) : (s.emit l).profiles = s.profiles := rfl
@[simp] theorem State.emit_streams (s : State) (l : List OutFrame) : (s.emit l).streams = s.streams := rfl
@[simp] theorem State.emit_prov (s : State) (l : List OutFrame) : (s.emit l).prov = s.prov := rfl
@[simp] theorem State.emit_ranges (s : State) (l : List OutFrame) : (s.emit l).ranges = s.ranges := rfl
@[simp] theorem State.emit_auths (s : State) (l : List OutFrame) : (s.emit l).auths = s.auths := rfl
@[simp] theorem State.emit_slots (s : State) (l : List OutFrame) : (s.emit l).slots = s.slots := rfl
@[simp] theorem State.emit_workQueue (s : State) (l : List OutFrame) : (s.emit l).workQueue = s.workQueue := rfl
@[simp] theorem State.emit_running (s : State) (l : List OutFrame) : (s.emit l).running = s.running := rfl
@[simp] theorem State.emit_noise (s : State) (l : List OutFrame) : (s.emit l).noise = s.noise := rfl
@[simp] theorem State.emit_warmCount (s : State) (l : List OutFrame) : (s.emit l).warmCount = s.warmCount := rfl
@[simp] theorem State.emit_jobs (s : State) (l : List OutFrame) : (s.emit l).jobs = s.jobs := rfl
@[simp] theorem State.emit_waiting (s : State) (l : List OutFrame) : (s.emit l).waiting = s.waiting := rfl
@[simp] theorem State.emit_nextTag (s : State) (l : List OutFrame) : (s.emit l).nextTag = s.nextTag := rfl
@[simp] theorem State.emit_laneQueue (s : State) (l : List OutFrame) : (s.emit l).laneQueue = s.laneQueue := rfl
@[simp] theorem State.emit_nextArrival (s : State) (l : List OutFrame) : (s.emit l).nextArrival = s.nextArrival := rfl
@[simp] theorem State.emit_lanes (s : State) (l : List OutFrame) : (s.emit l).lanes = s.lanes := rfl
@[simp] theorem State.emit_sweep (s : State) (l : List OutFrame) : (s.emit l).sweep = s.sweep := rfl
@[simp] theorem State.emit_nextPull (s : State) (l : List OutFrame) : (s.emit l).nextPull = s.nextPull := rfl
@[simp] theorem State.emit_ticks (s : State) (l : List OutFrame) : (s.emit l).ticks = s.ticks := rfl
@[simp] theorem State.emit_interval (s : State) (l : List OutFrame) : (s.emit l).interval = s.interval := rfl
@[simp] theorem State.emit_power (s : State) (l : List OutFrame) : (s.emit l).power = s.power := rfl
@[simp] theorem State.emit_deepPending (s : State) (l : List OutFrame) : (s.emit l).deepPending = s.deepPending := rfl
@[simp] theorem State.emit_hold (s : State) (l : List OutFrame) : (s.emit l).hold = s.hold := rfl
@[simp] theorem State.emit_cause (s : State) (l : List OutFrame) : (s.emit l).cause = s.cause := rfl
@[simp] theorem State.emit_draws (s : State) (l : List OutFrame) : (s.emit l).draws = s.draws := rfl
@[simp] theorem State.emit_verifierLog (s : State) (l : List OutFrame) : (s.emit l).verifierLog = s.verifierLog := rfl
@[simp] theorem State.emit_keyLog (s : State) (l : List OutFrame) : (s.emit l).keyLog = s.keyLog := rfl
@[simp] theorem State.emit_nextUid (s : State) (l : List OutFrame) : (s.emit l).nextUid = s.nextUid := rfl
@[simp] theorem State.emit_pending (s : State) (l : List OutFrame) : (s.emit l).pending = s.pending := rfl

@[simp] theorem State.emit_nil (s : State) : s.emit [] = s := by simp [State.emit]

theorem State.emit_emit (s : State) (a b : List OutFrame) : (s.emit a).emit b = s.emit (a ++ b) := by
  simp [State.emit]

/-! ### The wake and the end of a received frame -/

@[simp] theorem State.wake_inReset (s : State) : (s.wake).inReset = s.inReset := by
  unfold State.wake; split <;> rfl
@[simp] theorem State.wake_receiving (s : State) : (s.wake).receiving = s.receiving := by
  unfold State.wake; split <;> rfl
@[simp] theorem State.wake_order (s : State) : (s.wake).order = s.order := by
  unfold State.wake; split <;> rfl
@[simp] theorem State.wake_sending (s : State) : (s.wake).sending = s.sending := by
  unfold State.wake; split <;> rfl
@[simp] theorem State.wake_jobPool (s : State) : (s.wake).jobPool = s.jobPool := by
  unfold State.wake; split <;> rfl
@[simp] theorem State.wake_sweepPool (s : State) : (s.wake).sweepPool = s.sweepPool := by
  unfold State.wake; split <;> rfl
@[simp] theorem State.wake_profiles (s : State) : (s.wake).profiles = s.profiles := by
  unfold State.wake; split <;> rfl
@[simp] theorem State.wake_streams (s : State) : (s.wake).streams = s.streams := by
  unfold State.wake; split <;> rfl
@[simp] theorem State.wake_prov (s : State) : (s.wake).prov = s.prov := by
  unfold State.wake; split <;> rfl
@[simp] theorem State.wake_ranges (s : State) : (s.wake).ranges = s.ranges := by
  unfold State.wake; split <;> rfl
@[simp] theorem State.wake_auths (s : State) : (s.wake).auths = s.auths := by
  unfold State.wake; split <;> rfl
@[simp] theorem State.wake_slots (s : State) : (s.wake).slots = s.slots := by
  unfold State.wake; split <;> rfl
@[simp] theorem State.wake_workQueue (s : State) : (s.wake).workQueue = s.workQueue := by
  unfold State.wake; split <;> rfl
@[simp] theorem State.wake_running (s : State) : (s.wake).running = s.running := by
  unfold State.wake; split <;> rfl
@[simp] theorem State.wake_jobs (s : State) : (s.wake).jobs = s.jobs := by
  unfold State.wake; split <;> rfl
@[simp] theorem State.wake_waiting (s : State) : (s.wake).waiting = s.waiting := by
  unfold State.wake; split <;> rfl
@[simp] theorem State.wake_nextTag (s : State) : (s.wake).nextTag = s.nextTag := by
  unfold State.wake; split <;> rfl
@[simp] theorem State.wake_laneQueue (s : State) : (s.wake).laneQueue = s.laneQueue := by
  unfold State.wake; split <;> rfl
@[simp] theorem State.wake_nextArrival (s : State) : (s.wake).nextArrival = s.nextArrival := by
  unfold State.wake; split <;> rfl
@[simp] theorem State.wake_lanes (s : State) : (s.wake).lanes = s.lanes := by
  unfold State.wake; split <;> rfl
@[simp] theorem State.wake_sweep (s : State) : (s.wake).sweep = s.sweep := by
  unfold State.wake; split <;> rfl
@[simp] theorem State.wake_nextPull (s : State) : (s.wake).nextPull = s.nextPull := by
  unfold State.wake; split <;> rfl
@[simp] theorem State.wake_ticks (s : State) : (s.wake).ticks = s.ticks := by
  unfold State.wake; split <;> rfl
@[simp] theorem State.wake_interval (s : State) : (s.wake).interval = s.interval := by
  unfold State.wake; split <;> rfl
@[simp] theorem State.wake_deepPending (s : State) : (s.wake).deepPending = s.deepPending := by
  unfold State.wake; split <;> rfl
@[simp] theorem State.wake_hold (s : State) : (s.wake).hold = s.hold := by
  unfold State.wake; split <;> rfl
@[simp] theorem State.wake_cause (s : State) : (s.wake).cause = s.cause := by
  unfold State.wake; split <;> rfl
@[simp] theorem State.wake_draws (s : State) : (s.wake).draws = s.draws := by
  unfold State.wake; split <;> rfl
@[simp] theorem State.wake_verifierLog (s : State) : (s.wake).verifierLog = s.verifierLog := by
  unfold State.wake; split <;> rfl
@[simp] theorem State.wake_keyLog (s : State) : (s.wake).keyLog = s.keyLog := by
  unfold State.wake; split <;> rfl
@[simp] theorem State.wake_nextUid (s : State) : (s.wake).nextUid = s.nextUid := by
  unfold State.wake; split <;> rfl
@[simp] theorem State.wake_pending (s : State) : (s.wake).pending = s.pending := by
  unfold State.wake; split <;> rfl

/-- The wake in full (R170). -/
theorem State.wake_eq (s : State) :
    s.wake = if s.power = .active then s else { s with power := .active, noise := .warming, warmCount := 0 } := by
  unfold State.wake
  split <;> simp_all

@[simp] theorem State.wake_power (s : State) : s.wake.power = .active := by
  unfold State.wake
  split <;> simp_all

theorem State.wake_active {s : State} (h : s.power = .active) : s.wake = s := by simp [State.wake_eq, h]

@[simp] theorem State.wake_wake (s : State) : s.wake.wake = s.wake := State.wake_active s.wake_power

@[simp] theorem State.frameEnded_receiving (s : State) : s.frameEnded.receiving = [] := rfl
@[simp] theorem State.frameEnded_power (s : State) : s.frameEnded.power = .active := by simp [State.frameEnded]
@[simp] theorem State.frameEnded_noise (s : State) : s.frameEnded.noise = s.wake.noise := rfl
@[simp] theorem State.frameEnded_warmCount (s : State) : s.frameEnded.warmCount = s.wake.warmCount := rfl
@[simp] theorem State.frameEnded_inReset (s : State) : (s.frameEnded).inReset = s.inReset := by simp [State.frameEnded]
@[simp] theorem State.frameEnded_order (s : State) : (s.frameEnded).order = s.order := by simp [State.frameEnded]
@[simp] theorem State.frameEnded_sending (s : State) : (s.frameEnded).sending = s.sending := by simp [State.frameEnded]
@[simp] theorem State.frameEnded_jobPool (s : State) : (s.frameEnded).jobPool = s.jobPool := by simp [State.frameEnded]
@[simp] theorem State.frameEnded_sweepPool (s : State) : (s.frameEnded).sweepPool = s.sweepPool := by simp [State.frameEnded]
@[simp] theorem State.frameEnded_profiles (s : State) : (s.frameEnded).profiles = s.profiles := by simp [State.frameEnded]
@[simp] theorem State.frameEnded_streams (s : State) : (s.frameEnded).streams = s.streams := by simp [State.frameEnded]
@[simp] theorem State.frameEnded_prov (s : State) : (s.frameEnded).prov = s.prov := by simp [State.frameEnded]
@[simp] theorem State.frameEnded_ranges (s : State) : (s.frameEnded).ranges = s.ranges := by simp [State.frameEnded]
@[simp] theorem State.frameEnded_auths (s : State) : (s.frameEnded).auths = s.auths := by simp [State.frameEnded]
@[simp] theorem State.frameEnded_slots (s : State) : (s.frameEnded).slots = s.slots := by simp [State.frameEnded]
@[simp] theorem State.frameEnded_workQueue (s : State) : (s.frameEnded).workQueue = s.workQueue := by simp [State.frameEnded]
@[simp] theorem State.frameEnded_running (s : State) : (s.frameEnded).running = s.running := by simp [State.frameEnded]
@[simp] theorem State.frameEnded_jobs (s : State) : (s.frameEnded).jobs = s.jobs := by simp [State.frameEnded]
@[simp] theorem State.frameEnded_waiting (s : State) : (s.frameEnded).waiting = s.waiting := by simp [State.frameEnded]
@[simp] theorem State.frameEnded_nextTag (s : State) : (s.frameEnded).nextTag = s.nextTag := by simp [State.frameEnded]
@[simp] theorem State.frameEnded_laneQueue (s : State) : (s.frameEnded).laneQueue = s.laneQueue := by simp [State.frameEnded]
@[simp] theorem State.frameEnded_nextArrival (s : State) : (s.frameEnded).nextArrival = s.nextArrival := by simp [State.frameEnded]
@[simp] theorem State.frameEnded_lanes (s : State) : (s.frameEnded).lanes = s.lanes := by simp [State.frameEnded]
@[simp] theorem State.frameEnded_sweep (s : State) : (s.frameEnded).sweep = s.sweep := by simp [State.frameEnded]
@[simp] theorem State.frameEnded_nextPull (s : State) : (s.frameEnded).nextPull = s.nextPull := by simp [State.frameEnded]
@[simp] theorem State.frameEnded_ticks (s : State) : (s.frameEnded).ticks = s.ticks := by simp [State.frameEnded]
@[simp] theorem State.frameEnded_interval (s : State) : (s.frameEnded).interval = s.interval := by simp [State.frameEnded]
@[simp] theorem State.frameEnded_deepPending (s : State) : (s.frameEnded).deepPending = s.deepPending := by simp [State.frameEnded]
@[simp] theorem State.frameEnded_hold (s : State) : (s.frameEnded).hold = s.hold := by simp [State.frameEnded]
@[simp] theorem State.frameEnded_cause (s : State) : (s.frameEnded).cause = s.cause := by simp [State.frameEnded]
@[simp] theorem State.frameEnded_draws (s : State) : (s.frameEnded).draws = s.draws := by simp [State.frameEnded]
@[simp] theorem State.frameEnded_verifierLog (s : State) : (s.frameEnded).verifierLog = s.verifierLog := by simp [State.frameEnded]
@[simp] theorem State.frameEnded_keyLog (s : State) : (s.frameEnded).keyLog = s.keyLog := by simp [State.frameEnded]
@[simp] theorem State.frameEnded_nextUid (s : State) : (s.frameEnded).nextUid = s.nextUid := by simp [State.frameEnded]
@[simp] theorem State.frameEnded_pending (s : State) : (s.frameEnded).pending = s.pending := by simp [State.frameEnded]

/-! ### The sweep record -/

@[simp] theorem State.mapSweep_sweep (s : State) (f : Sweep → Sweep) : (s.mapSweep f).sweep = s.sweep.map f := rfl
@[simp] theorem State.mapSweep_inReset (s : State) (f : Sweep → Sweep) : (s.mapSweep f).inReset = s.inReset := rfl
@[simp] theorem State.mapSweep_receiving (s : State) (f : Sweep → Sweep) : (s.mapSweep f).receiving = s.receiving := rfl
@[simp] theorem State.mapSweep_order (s : State) (f : Sweep → Sweep) : (s.mapSweep f).order = s.order := rfl
@[simp] theorem State.mapSweep_sending (s : State) (f : Sweep → Sweep) : (s.mapSweep f).sending = s.sending := rfl
@[simp] theorem State.mapSweep_jobPool (s : State) (f : Sweep → Sweep) : (s.mapSweep f).jobPool = s.jobPool := rfl
@[simp] theorem State.mapSweep_sweepPool (s : State) (f : Sweep → Sweep) : (s.mapSweep f).sweepPool = s.sweepPool := rfl
@[simp] theorem State.mapSweep_profiles (s : State) (f : Sweep → Sweep) : (s.mapSweep f).profiles = s.profiles := rfl
@[simp] theorem State.mapSweep_streams (s : State) (f : Sweep → Sweep) : (s.mapSweep f).streams = s.streams := rfl
@[simp] theorem State.mapSweep_prov (s : State) (f : Sweep → Sweep) : (s.mapSweep f).prov = s.prov := rfl
@[simp] theorem State.mapSweep_ranges (s : State) (f : Sweep → Sweep) : (s.mapSweep f).ranges = s.ranges := rfl
@[simp] theorem State.mapSweep_auths (s : State) (f : Sweep → Sweep) : (s.mapSweep f).auths = s.auths := rfl
@[simp] theorem State.mapSweep_slots (s : State) (f : Sweep → Sweep) : (s.mapSweep f).slots = s.slots := rfl
@[simp] theorem State.mapSweep_workQueue (s : State) (f : Sweep → Sweep) : (s.mapSweep f).workQueue = s.workQueue := rfl
@[simp] theorem State.mapSweep_running (s : State) (f : Sweep → Sweep) : (s.mapSweep f).running = s.running := rfl
@[simp] theorem State.mapSweep_noise (s : State) (f : Sweep → Sweep) : (s.mapSweep f).noise = s.noise := rfl
@[simp] theorem State.mapSweep_warmCount (s : State) (f : Sweep → Sweep) : (s.mapSweep f).warmCount = s.warmCount := rfl
@[simp] theorem State.mapSweep_jobs (s : State) (f : Sweep → Sweep) : (s.mapSweep f).jobs = s.jobs := rfl
@[simp] theorem State.mapSweep_waiting (s : State) (f : Sweep → Sweep) : (s.mapSweep f).waiting = s.waiting := rfl
@[simp] theorem State.mapSweep_nextTag (s : State) (f : Sweep → Sweep) : (s.mapSweep f).nextTag = s.nextTag := rfl
@[simp] theorem State.mapSweep_laneQueue (s : State) (f : Sweep → Sweep) : (s.mapSweep f).laneQueue = s.laneQueue := rfl
@[simp] theorem State.mapSweep_nextArrival (s : State) (f : Sweep → Sweep) : (s.mapSweep f).nextArrival = s.nextArrival := rfl
@[simp] theorem State.mapSweep_lanes (s : State) (f : Sweep → Sweep) : (s.mapSweep f).lanes = s.lanes := rfl
@[simp] theorem State.mapSweep_nextPull (s : State) (f : Sweep → Sweep) : (s.mapSweep f).nextPull = s.nextPull := rfl
@[simp] theorem State.mapSweep_ticks (s : State) (f : Sweep → Sweep) : (s.mapSweep f).ticks = s.ticks := rfl
@[simp] theorem State.mapSweep_interval (s : State) (f : Sweep → Sweep) : (s.mapSweep f).interval = s.interval := rfl
@[simp] theorem State.mapSweep_power (s : State) (f : Sweep → Sweep) : (s.mapSweep f).power = s.power := rfl
@[simp] theorem State.mapSweep_deepPending (s : State) (f : Sweep → Sweep) : (s.mapSweep f).deepPending = s.deepPending := rfl
@[simp] theorem State.mapSweep_hold (s : State) (f : Sweep → Sweep) : (s.mapSweep f).hold = s.hold := rfl
@[simp] theorem State.mapSweep_cause (s : State) (f : Sweep → Sweep) : (s.mapSweep f).cause = s.cause := rfl
@[simp] theorem State.mapSweep_draws (s : State) (f : Sweep → Sweep) : (s.mapSweep f).draws = s.draws := rfl
@[simp] theorem State.mapSweep_verifierLog (s : State) (f : Sweep → Sweep) : (s.mapSweep f).verifierLog = s.verifierLog := rfl
@[simp] theorem State.mapSweep_keyLog (s : State) (f : Sweep → Sweep) : (s.mapSweep f).keyLog = s.keyLog := rfl
@[simp] theorem State.mapSweep_nextUid (s : State) (f : Sweep → Sweep) : (s.mapSweep f).nextUid = s.nextUid := rfl
@[simp] theorem State.mapSweep_pending (s : State) (f : Sweep → Sweep) : (s.mapSweep f).pending = s.pending := rfl

end Sys2Proof.Machine
end

