-- ==== Sys2Proof/Laws/Table.lean ====
section
/-! SUPPORT. What the operations on tables give. -/

namespace Sys2Proof

variable {α β : Type} {n : Nat}

theorem Table.ext_get {t u : Table α n} (h : ∀ i, t.get i = u.get i) : t = u := by
  obtain ⟨l, hl⟩ := t
  obtain ⟨m, hm⟩ := u
  congr 1
  exact List.ext_getElem (by rw [hl, hm]) fun i h1 _ => h ⟨i, hl ▸ h1⟩

@[simp] theorem Table.get_set_self (t : Table α n) (i : Fin n) (x : α) : (t.set i x).get i = x := by
  simp [Table.get, Table.set]

theorem Table.get_set (t : Table α n) (i j : Fin n) (x : α) :
    (t.set i x).get j = if i = j then x else t.get j := by
  simp [Table.get, Table.set, List.getElem_set, Fin.ext_iff]

@[simp] theorem Table.get_set_ne (t : Table α n) {i j : Fin n} (x : α) (h : i ≠ j) :
    (t.set i x).get j = t.get j := by
  rw [Table.get_set, if_neg h]

@[simp] theorem Table.get_update_self (t : Table α n) (i : Fin n) (f : α → α) : (t.update i f).get i = f (t.get i) := by
  simp [Table.update]

theorem Table.get_update (t : Table α n) (i j : Fin n) (f : α → α) :
    (t.update i f).get j = if i = j then f (t.get j) else t.get j := by
  unfold Table.update
  rw [Table.get_set]
  split
  · next h => rw [h]
  · rfl

@[simp] theorem Table.get_update_ne (t : Table α n) {i j : Fin n} (f : α → α) (h : i ≠ j) :
    (t.update i f).get j = t.get j := by
  rw [Table.get_update, if_neg h]

@[simp] theorem Table.get_map (f : α → β) (t : Table α n) (i : Fin n) : (t.map f).get i = f (t.get i) := by
  simp [Table.get, Table.map]

@[simp] theorem Table.get_ofFn (f : Fin n → α) (i : Fin n) : (Table.ofFn f).get i = f i := by
  simp [Table.get, Table.ofFn]

@[simp] theorem Table.get_replicate (x : α) (i : Fin n) : (Table.replicate n x).get i = x := by
  simp [Table.get, Table.replicate]

theorem Table.mem_rows {t : Table α n} {x : α} : x ∈ t.rows ↔ ∃ i, t.get i = x := by
  rw [List.mem_iff_getElem]
  constructor
  · rintro ⟨i, hi, rfl⟩
    exact ⟨⟨i, t.size ▸ hi⟩, rfl⟩
  · rintro ⟨i, rfl⟩
    exact ⟨i.val, by rw [t.size]; exact i.isLt, rfl⟩

theorem Table.any_iff {t : Table α n} {p : α → Bool} : t.any p = true ↔ ∃ i, p (t.get i) = true := by
  simp only [Table.any, List.any_eq_true, Table.mem_rows]
  exact ⟨fun ⟨_, ⟨i, hi⟩, h⟩ => ⟨i, hi ▸ h⟩, fun ⟨i, h⟩ => ⟨_, ⟨i, rfl⟩, h⟩⟩

theorem Table.any_false_iff {t : Table α n} {p : α → Bool} : t.any p = false ↔ ∀ i, p (t.get i) = false := by
  rw [← Bool.not_eq_true, Table.any_iff]
  simp

theorem Table.all_iff {t : Table α n} {p : α → Bool} : t.all p = true ↔ ∀ i, p (t.get i) = true := by
  simp only [Table.all, List.all_eq_true, Table.mem_rows]
  exact ⟨fun h i => h _ ⟨i, rfl⟩, fun h _ ⟨i, hi⟩ => hi ▸ h i⟩

theorem Table.mem_numbers {t : Table α n} {p : α → Bool} {i : Fin n} : i ∈ t.numbers p ↔ p (t.get i) = true := by
  simp [Table.numbers]

/-- The lowest number: it satisfies the condition, and no lower one does. -/
theorem Table.lowest_some {t : Table α n} {p : α → Bool} {i : Fin n} (h : t.lowest p = some i) :
    p (t.get i) = true ∧ ∀ j, j < i → p (t.get j) = false := by
  obtain ⟨h1, a, b, hab, hb⟩ := List.find?_eq_some_iff_append.mp h
  refine ⟨h1, fun j hj => ?_⟩
  have hp : (List.finRange n).Pairwise (· < ·) := List.pairwise_lt_finRange n
  have hm : j ∈ a ++ i :: b := hab ▸ List.mem_finRange j
  rw [hab, List.pairwise_append] at hp
  rcases List.mem_append.mp hm with h2 | h2
  · simpa using hb j h2
  · rcases List.mem_cons.mp h2 with rfl | h3
    · omega
    · have := List.rel_of_pairwise_cons hp.2.1 h3
      omega

theorem Table.lowest_none {t : Table α n} {p : α → Bool} : t.lowest p = none ↔ ∀ i, p (t.get i) = false := by
  simp [Table.lowest]

end Sys2Proof
end

