-- ==== Sys2Proof/Laws/Frames.lean ====
section
/-! SUPPORT. The footprint of each shared operation: the fields that it can change, every other field being as before. A
proof about other fields cites the footprint and never unfolds the operation. -/

namespace Sys2Proof.Machine

/-! ### Sequences of effects -/

@[simp] theorem thenDo_fst (e : Effect) (f : State → Effect) : (thenDo e f).1 = (f e.1).1 := rfl
@[simp] theorem thenDo_snd (e : Effect) (f : State → Effect) : (thenDo e f).2 = e.2 ++ (f e.1).2 := rfl
@[simp] theorem forEach_nil {α : Type} (f : α → State → Effect) (s : State) : forEach [] f s = (s, []) := rfl
@[simp] theorem forEach_cons {α : Type} (a : α) (l : List α) (f : α → State → Effect) (s : State) :
    forEach (a :: l) f s = thenDo (f a s) (forEach l f) := rfl

/-- What every member keeps, the sequence keeps. -/
theorem forEach_induction {α : Type} {P : State → Prop} {l : List α} {f : α → State → Effect}
    (step : ∀ a ∈ l, ∀ s, P s → P (f a s).1) : ∀ s, P s → P (forEach l f s).1 := by
  induction l with
  | nil => exact fun s h => h
  | cons a l ih =>
    intro s h
    exact ih (fun b hb => step b (List.mem_cons_of_mem _ hb)) _ (step a (List.mem_cons_self ..) s h)

/-- What every member of a list of updates keeps, the fold keeps. -/
theorem foldl_induction {α : Type} {P : State → Prop} {l : List α} {f : State → α → State}
    (step : ∀ a ∈ l, ∀ s, P s → P (f s a)) : ∀ s, P s → P (l.foldl f s) := by
  induction l with
  | nil => exact fun s h => h
  | cons a l ih =>
    intro s h
    exact ih (fun b hb => step b (List.mem_cons_of_mem _ hb)) _ (step a (List.mem_cons_self ..) s h)

theorem State.eta_sweep {s : State} {w : Option Sweep} (h : s.sweep = w) : s = { s with sweep := w } := by
  subst h; rfl

/-! ### Buffers and the transmit order -/

theorem State.setBuffer_frame (s : State) (b : BufRef) (v : Option Buffer) :
    ∃ jp sp, s.setBuffer b v = { s with jobPool := jp, sweepPool := sp } := by
  cases b <;> exact ⟨_, _, rfl⟩

theorem State.freeBuffers_frame (s : State) (l : List BufRef) :
    ∃ jp sp, s.freeBuffers l = { s with jobPool := jp, sweepPool := sp } :=
  foldl_induction (P := fun x => ∃ jp sp, x = { s with jobPool := jp, sweepPool := sp })
    (by rintro b - x ⟨jp, sp, rfl⟩; obtain ⟨jp', sp', h⟩ := State.setBuffer_frame _ b none; exact ⟨_, _, h⟩)
    s ⟨_, _, rfl⟩

theorem State.mapBuffer_frame (s : State) (b : BufRef) (f : Buffer → Buffer) :
    ∃ jp sp, s.mapBuffer b f = { s with jobPool := jp, sweepPool := sp } := s.setBuffer_frame b _

theorem State.withdraw_frame (s : State) (p : OutFrame → Bool) :
    ∃ o jp sp, s.withdraw p = { s with order := o, jobPool := jp, sweepPool := sp } := by
  obtain ⟨jp, sp, h⟩ := State.freeBuffers_frame
    { s with order := s.begun.toList ++ s.waitingFrames.filter fun f => !p f }
    ((s.withdrawn p).filterMap OutFrame.buffer)
  exact ⟨_, jp, sp, h⟩

/-! ### The Lane Queue and the lane counts -/

theorem State.raiseCounts_frame (s : State) (l : List SlotNo) : ∃ k, s.raiseCounts l = { s with slots := k } :=
  foldl_induction (P := fun x => ∃ k, x = { s with slots := k }) (by rintro a - x ⟨k, rfl⟩; exact ⟨_, rfl⟩) s ⟨_, rfl⟩

theorem State.lowerCounts_frame (s : State) (l : List SlotNo) : ∃ k, s.lowerCounts l = { s with slots := k } :=
  foldl_induction (P := fun x => ∃ k, x = { s with slots := k }) (by rintro a - x ⟨k, rfl⟩; exact ⟨_, rfl⟩) s ⟨_, rfl⟩

theorem State.enqueue_frame (s : State) (b : BufRef) (owner : Owner) (payload : List Byte) (lba : Nat) (op : LaneOp)
    (cls : ClassNo) (format : Format) :
    ∃ jp sp k, s.enqueue b owner payload lba op cls format =
      { s with jobPool := jp, sweepPool := sp, slots := k,
               laneQueue := s.laneQueue ++ [⟨owner, b, lba, op, cls, format, s.nextArrival⟩],
               nextArrival := s.nextArrival + 1 } := by
  obtain ⟨jp, sp, h⟩ := s.setBuffer_frame b (some ⟨owner, .awaiting, payload⟩)
  obtain ⟨k, h'⟩ := State.raiseCounts_frame (s.setBuffer b (some ⟨owner, .awaiting, payload⟩)) op.slots
  refine ⟨jp, sp, k, ?_⟩
  unfold State.enqueue
  rw [h', h]

theorem State.discardQueued_frame (s : State) (p : Owner → Bool) :
    ∃ jp sp k, s.discardQueued p =
      { s with jobPool := jp, sweepPool := sp, slots := k, laneQueue := s.laneQueue.filter fun e => !p e.owner } := by
  obtain ⟨jp, sp, h⟩ := State.freeBuffers_frame { s with laneQueue := s.laneQueue.filter fun e => !p e.owner }
    ((s.laneQueue.filter fun e => p e.owner).map QueueEntry.buffer)
  obtain ⟨k, h'⟩ := State.lowerCounts_frame
    { s with laneQueue := s.laneQueue.filter (fun e => !p e.owner), jobPool := jp, sweepPool := sp } ((s.laneQueue.filter fun e => p e.owner).flatMap fun e => e.op.slots)
  refine ⟨jp, sp, k, ?_⟩
  unfold State.discardQueued
  simp only
  rw [h, h']

theorem State.detach_frame (s : State) (p : SlotNo → Bool) : ∃ l, s.detach p = { s with lanes := l } := ⟨_, rfl⟩

/-! ### Drains, the endings of jobs, waiting jobs -/

theorem State.completeDrain_frame (k : SlotNo) (s : State) :
    ∃ sl fr, State.completeDrain k s = ({ s with slots := sl }, fr) := by
  unfold State.completeDrain
  split <;> exact ⟨_, _, rfl⟩

theorem State.settleDrains_frame (s : State) : ∃ sl fr, s.settleDrains = ({ s with slots := sl }, fr) := by
  have h : ∃ sl, s.settleDrains.1 = { s with slots := sl } :=
    forEach_induction (P := fun x => ∃ sl, x = { s with slots := sl })
      (by rintro k - x ⟨sl, rfl⟩; obtain ⟨sl', fr, h⟩ := State.completeDrain_frame k { s with slots := sl }
          exact ⟨sl', by rw [h]⟩) s ⟨_, rfl⟩
  obtain ⟨sl, h⟩ := h
  exact ⟨sl, _, Prod.ext h rfl⟩

theorem State.endJob_frame (s : State) (tag : Tag) (reason : EndReason) (owed : Option Byte) :
    ∃ o jp sp k q j w, s.endJob tag reason owed =
      { s with order := o, jobPool := jp, sweepPool := sp, slots := k, laneQueue := q, jobs := j, waiting := w } := by
  unfold State.endJob
  split
  · exact ⟨_, _, _, _, _, _, _, rfl⟩
  · next j _ =>
    split
    · exact ⟨_, _, _, _, _, _, _, rfl⟩
    · obtain ⟨o, jp, sp, h1⟩ := s.withdraw_frame (OutFrame.ofJob j.uid)
      obtain ⟨jp2, sp2, h2⟩ := (s.withdraw (OutFrame.ofJob j.uid)).freeBuffers_frame (j.reorder.map JobFinished.buffer)
      obtain ⟨jp3, sp3, k, h3⟩ := ((s.withdraw (OutFrame.ofJob j.uid)).freeBuffers
        (j.reorder.map JobFinished.buffer)).discardQueued_frame (Owner.isJob j.uid)
      simp only
      rw [h3, h2, h1]
      exact ⟨_, _, _, _, _, _, _, rfl⟩

theorem State.endJobs_frame (s : State) (tags : List Tag) (reason : EndReason) :
    ∃ o jp sp k q j w, s.endJobs tags reason =
      { s with order := o, jobPool := jp, sweepPool := sp, slots := k, laneQueue := q, jobs := j, waiting := w } :=
  foldl_induction (P := fun x => ∃ o jp sp k q j w, x =
      { s with order := o, jobPool := jp, sweepPool := sp, slots := k, laneQueue := q, jobs := j, waiting := w })
    (by rintro t - x ⟨o, jp, sp, k, q, j, w, rfl⟩
        obtain ⟨o2, jp2, sp2, k2, q2, j2, w2, h⟩ := State.endJob_frame
          { s with order := o, jobPool := jp, sweepPool := sp, slots := k, laneQueue := q, jobs := j, waiting := w }
          t reason none
        exact ⟨_, _, _, _, _, _, _, h⟩) s ⟨_, _, _, _, _, _, _, rfl⟩

theorem State.leaveIfClear_frame (tag : Tag) (s : State) :
    ∃ j fr, State.leaveIfClear tag s = ({ s with jobs := j }, fr) := by
  unfold State.leaveIfClear
  split
  · exact ⟨_, _, rfl⟩
  · split <;> exact ⟨_, _, rfl⟩

theorem State.leaveAll_frame (s : State) : ∃ j fr, s.leaveAll = ({ s with jobs := j }, fr) := by
  have h : ∀ l : List Tag, ∃ j, (forEach l State.leaveIfClear s).1 = { s with jobs := j } := fun l =>
    forEach_induction (P := fun x => ∃ j, x = { s with jobs := j })
      (by rintro t - x ⟨j, rfl⟩; obtain ⟨j', fr, h⟩ := State.leaveIfClear_frame t { s with jobs := j }
          exact ⟨j', by rw [h]⟩) s ⟨_, rfl⟩
  obtain ⟨j, h⟩ := h allTags
  exact ⟨j, s.leaveAll.2, Prod.ext h (Eq.refl s.leaveAll.2)⟩

theorem State.recheck_frame (tag : Tag) (s : State) :
    ∃ j w fr, State.recheck tag s = ({ s with jobs := j, waiting := w }, fr) := by
  unfold State.recheck
  split
  · exact ⟨_, _, _, rfl⟩
  · split
    · exact ⟨_, _, _, rfl⟩
    · simp only
      split
      · exact ⟨_, _, _, rfl⟩
      · split
        · exact ⟨_, _, _, rfl⟩
        · split <;> exact ⟨_, _, _, rfl⟩

theorem State.reevaluate_frame (s : State) :
    ∃ j w fr, s.reevaluate = ({ s with jobs := j, waiting := w }, fr) := by
  unfold State.reevaluate
  split
  · exact ⟨_, _, _, rfl⟩
  · have h : ∃ j w, (forEach s.waiting State.recheck s).1 = { s with jobs := j, waiting := w } :=
      forEach_induction (P := fun x => ∃ j w, x = { s with jobs := j, waiting := w })
        (by rintro t - x ⟨j, w, rfl⟩
            obtain ⟨j', w', fr, h⟩ := State.recheck_frame t { s with jobs := j, waiting := w }
            exact ⟨j', w', by rw [h]⟩) s ⟨_, _, rfl⟩
    obtain ⟨j, w, h⟩ := h
    exact ⟨j, w, _, Prod.ext h rfl⟩

/-! ### The wrap unit's endings and the noise source -/

theorem State.workFails_frame (s : State) (op : WorkOp) :
    ∃ k a, s.workFails op = { s with slots := k, auths := a } := by
  cases op <;> exact ⟨_, _, rfl⟩

theorem State.noiseTo_frame (s : State) (health : NoiseState) :
    ∃ q r k a fr, s.noiseTo health =
      ({ s with noise := health, warmCount := 0, workQueue := q, running := r, slots := k, auths := a }, fr) := by
  unfold State.noiseTo
  split
  · unfold State.leaveHealthy
    simp only
    split
    · next r _ =>
      split
      · obtain ⟨k, a, h⟩ := State.workFails_frame
          { s with noise := health, warmCount := 0, workQueue := s.workQueue.map WorkItem.markLost, running := none }
          r.item.op
        exact ⟨_, _, _, _, _, by rw [h]⟩
      · exact ⟨_, _, _, _, _, rfl⟩
    · exact ⟨_, _, s.slots, s.auths, _, rfl⟩
  · exact ⟨_, _, s.slots, s.auths, _, rfl⟩

theorem State.endKeyWork_frame (s : State) :
    ∃ l a k, s.endKeyWork = { s with lanes := l, workQueue := [], running := none, auths := a, slots := k } :=
  ⟨_, _, _, rfl⟩

theorem State.emptyAllSlots_frame (s : State) :
    ∃ l, s.emptyAllSlots = { s with lanes := l, slots := Table.replicate 20 KeySlot.initial } := ⟨_, rfl⟩

/-! ### The sweep -/

theorem State.dropPulls_frame (s : State) :
    ∃ o jp sp k q, s.dropPulls =
      { s with order := o, jobPool := jp, sweepPool := sp, slots := k, laneQueue := q,
               sweep := s.sweep.map fun x => { x with pulls := [], issued := x.committed, blocked := false } } := by
  unfold State.dropPulls
  split
  · next h => exact ⟨_, _, _, _, _, by rw [h]; exact State.eta_sweep h⟩
  · next w h =>
    obtain ⟨o, jp, sp, h1⟩ := s.withdraw_frame (OutFrame.ofPulls w.pulls)
    obtain ⟨jp2, sp2, h2⟩ := (s.withdraw (OutFrame.ofPulls w.pulls)).freeBuffers_frame
      (w.pulls.flatMap fun p => p.reorder.filterMap PullFinished.buffer)
    obtain ⟨jp3, sp3, k, h3⟩ := ((s.withdraw (OutFrame.ofPulls w.pulls)).freeBuffers
      (w.pulls.flatMap fun p => p.reorder.filterMap PullFinished.buffer)).discardQueued_frame (Owner.isPulls w.pulls)
    rw [h3, h2, h1]
    exact ⟨_, _, _, _, _, rfl⟩

theorem State.collapse_frame (reason : EndReason) (pull : Option Half) (s : State) :
    ∃ o jp sp k q j w fr, State.collapse reason pull s =
      ({ s with order := o, jobPool := jp, sweepPool := sp, slots := k, laneQueue := q, jobs := j, waiting := w,
                sweep := s.sweep.map fun x =>
                  { x with pulls := [], issued := x.committed, blocked := false, state := .paused } }, fr) := by
  unfold State.collapse
  split
  · next h => exact ⟨_, _, _, _, _, _, _, _, Prod.ext (by simp only [h]; exact State.eta_sweep h) rfl⟩
  · next w h =>
    obtain ⟨o, jp, sp, k, q, h1⟩ := s.dropPulls_frame
    obtain ⟨j, wt, fr, h2⟩ := (s.dropPulls.mapSweep fun x => { x with state := .paused }).reevaluate_frame
    refine ⟨o, jp, sp, k, q, j, wt, _, Prod.ext ?_ rfl⟩
    rw [thenDo_fst, h2, h1]
    simp [State.mapSweep, h]

theorem State.pauseIfEmpty_frame (s : State) : ∃ w fr, s.pauseIfEmpty = ({ s with sweep := w }, fr) := by
  unfold State.pauseIfEmpty
  split
  · exact ⟨_, _, rfl⟩
  · split <;> exact ⟨_, _, rfl⟩

theorem State.checkpoint_frame (s : State) : ∃ w fr, s.checkpoint = ({ s with sweep := w }, fr) := by
  unfold State.checkpoint
  split
  · exact ⟨_, _, rfl⟩
  · split <;> exact ⟨_, _, rfl⟩

theorem State.issuePulls_frame (n : Nat) (s : State) :
    ∃ w np nu fr, State.issuePulls n s = ({ s with sweep := w, nextPull := np, nextUid := nu }, fr) := by
  induction n generalizing s with
  | zero => exact ⟨_, _, _, _, rfl⟩
  | succ n ih =>
    have unchanged (w : Option Sweep) :
        ∃ w' np nu fr, (({ s with sweep := w }, []) : Effect) =
          ({ s with sweep := w', nextPull := np, nextUid := nu }, fr) := ⟨w, s.nextPull, s.nextUid, [], rfl⟩
    unfold State.issuePulls
    split
    · exact unchanged _
    · split
      · exact unchanged s.sweep
      · split
        · exact unchanged _
        · split
          · exact unchanged _
          · next w _ _ _ x _ _ =>
            obtain ⟨w2, np, nu, fr, h⟩ := ih (s.issuePull w x).1
            exact ⟨w2, np, nu, _, Prod.ext (by rw [thenDo_fst, h]; rfl) rfl⟩

theorem State.issueStep_frame (s : State) :
    ∃ w np nu fr, s.issueStep = ({ s with sweep := w, nextPull := np, nextUid := nu }, fr) := by
  unfold State.issueStep
  split
  · obtain ⟨w, np, nu, fr, h⟩ := State.issuePulls_frame 64 (s.mapSweep fun w => { w with blocked := false })
    exact ⟨w, np, nu, fr, by rw [h]; rfl⟩
  · exact ⟨_, _, _, _, rfl⟩

theorem issueIfLeft_frame (s : State) (e : Effect) :
    ∃ w np nu fr, issueIfLeft s e = ({ e.1 with sweep := w, nextPull := np, nextUid := nu }, fr) := by
  unfold issueIfLeft
  split
  · obtain ⟨w, np, nu, fr, h⟩ := e.1.issueStep_frame
    exact ⟨w, np, nu, _, Prod.ext (by rw [thenDo_fst, h]) rfl⟩
  · exact ⟨_, _, _, _, rfl⟩

theorem State.reevaluateAndIssue_frame (s : State) :
    ∃ j w p np nu fr, s.reevaluateAndIssue =
      ({ s with jobs := j, waiting := w, sweep := p, nextPull := np, nextUid := nu }, fr) := by
  obtain ⟨j, w, fr, h⟩ := s.reevaluate_frame
  obtain ⟨p, np, nu, fr2, h2⟩ := s.reevaluate.1.issueStep_frame
  refine ⟨j, w, p, np, nu, _, Prod.ext ?_ rfl⟩
  unfold State.reevaluateAndIssue
  rw [thenDo_fst, h2, h]

theorem State.retireSlot_frame (s : State) (k : SlotNo) :
    ∃ o sl, s.retireSlot k = (o, { s with slots := sl }) := by
  unfold State.retireSlot
  split
  · exact ⟨_, _, rfl⟩
  · split <;> exact ⟨_, _, rfl⟩

theorem State.finishSweep_frame (s : State) :
    ∃ rg k j w fr, s.finishSweep =
      ({ s with ranges := rg, sweep := none, slots := k, jobs := j, waiting := w }, fr) := by
  unfold State.finishSweep
  split
  · next h => exact ⟨_, _, _, _, _, Prod.ext (State.eta_sweep h) rfl⟩
  · next w h =>
    obtain ⟨o, k, h1⟩ := (s.promote w).retireSlot_frame w.oldSlot
    obtain ⟨j, wt, fr, h2⟩ := ((s.promote w).retireSlot w.oldSlot).2.reevaluate_frame
    refine ⟨(s.promote w).ranges, k, j, wt, _, Prod.ext ?_ rfl⟩
    simp only [thenDo_fst]
    rw [h2, h1]
    rfl

theorem State.finishOrIssue_frame (s : State) :
    ∃ rg k j w p np nu fr, s.finishOrIssue =
      ({ s with ranges := rg, slots := k, jobs := j, waiting := w, sweep := p, nextPull := np, nextUid := nu }, fr) := by
  unfold State.finishOrIssue
  split
  · exact ⟨_, _, _, _, _, _, _, _, rfl⟩
  · split
    · obtain ⟨rg, k, j, w, fr, h⟩ := s.finishSweep_frame
      exact ⟨rg, k, j, w, none, _, _, fr, h⟩
    · obtain ⟨p, np, nu, fr, h⟩ := s.issueStep_frame
      exact ⟨_, _, _, _, p, np, nu, fr, h⟩

theorem State.afterCommit_frame (s : State) :
    ∃ rg k j w p np nu fr, s.afterCommit =
      ({ s with ranges := rg, slots := k, jobs := j, waiting := w, sweep := p, nextPull := np, nextUid := nu }, fr) := by
  unfold State.afterCommit
  split
  · exact ⟨_, _, _, _, _, _, _, _, rfl⟩
  · split
    · obtain ⟨rg, k, j, w, fr, h⟩ := s.finishSweep_frame
      exact ⟨rg, k, j, w, none, _, _, fr, h⟩
    · obtain ⟨p1, fr1, h1⟩ := s.checkpoint_frame
      obtain ⟨p2, fr2, h2⟩ := s.checkpoint.1.pauseIfEmpty_frame
      obtain ⟨j, w, p, np, nu, fr, h3⟩ := s.checkpoint.1.pauseIfEmpty.1.reevaluateAndIssue_frame
      refine ⟨s.ranges, s.slots, j, w, p, np, nu, _, Prod.ext ?_ rfl⟩
      simp only [thenDo_fst]
      rw [h3, h2, h1]

theorem State.handOverJob_frame (tag : Tag) (n : Nat) (s : State) :
    ∃ j fr, State.handOverJob tag n s = ({ s with jobs := j }, fr) := by
  induction n generalizing s with
  | zero => exact ⟨_, _, rfl⟩
  | succ n ih =>
    unfold State.handOverJob
    split
    · exact ⟨_, _, rfl⟩
    · split
      · exact ⟨_, _, rfl⟩
      · next j _ _ f _ =>
        split
        · exact ⟨_, _, rfl⟩
        · obtain ⟨j2, fr, h⟩ := ih { s with jobs := s.jobs.set tag (some j.advanced) }
          exact ⟨j2, _, Prod.ext (by rw [thenDo_fst, h]) rfl⟩

theorem State.mapPull_frame (s : State) (uid : Nat) (f : Pull → Pull) : ∃ w, s.mapPull uid f = { s with sweep := w } :=
  ⟨_, rfl⟩

theorem State.handOverPull_frame (uid n : Nat) (s : State) :
    ∃ w fr, State.handOverPull uid n s = ({ s with sweep := w }, fr) := by
  induction n generalizing s with
  | zero => exact ⟨_, _, rfl⟩
  | succ n ih =>
    unfold State.handOverPull
    split
    · exact ⟨_, _, rfl⟩
    · split
      · exact ⟨_, _, rfl⟩
      · next p _ _ f _ =>
        obtain ⟨w, fr, h⟩ := ih (s.mapPull uid Pull.advanced)
        exact ⟨w, _, Prod.ext (by rw [thenDo_fst, h]; rfl) rfl⟩

/-! ### Carries -/

theorem State.ageJob_frame (s : State) (tag : Tag) :
    ∃ o jp sp k q j w, s.ageJob tag =
      { s with order := o, jobPool := jp, sweepPool := sp, slots := k, laneQueue := q, jobs := j, waiting := w } := by
  unfold State.ageJob
  split
  · exact ⟨_, _, _, _, _, _, _, rfl⟩
  · split
    · split
      · exact ⟨_, _, _, _, _, _, _, rfl⟩
      · exact s.endJob_frame tag .stalled none
    · exact ⟨_, _, _, _, _, _, _, rfl⟩

theorem State.ageJobs_frame (s : State) :
    ∃ o jp sp k q j w fr, s.ageJobs =
      ({ s with order := o, jobPool := jp, sweepPool := sp, slots := k, laneQueue := q, jobs := j, waiting := w }, fr) := by
  have h : ∀ l : List Tag, ∃ o jp sp k q j w, l.foldl State.ageJob s =
      { s with order := o, jobPool := jp, sweepPool := sp, slots := k, laneQueue := q, jobs := j, waiting := w } := fun l =>
    foldl_induction (P := fun x => ∃ o jp sp k q j w, x =
        { s with order := o, jobPool := jp, sweepPool := sp, slots := k, laneQueue := q, jobs := j, waiting := w })
      (by rintro t - x ⟨o, jp, sp, k, q, j, w, rfl⟩
          obtain ⟨o2, jp2, sp2, k2, q2, j2, w2, h⟩ := State.ageJob_frame
            { s with order := o, jobPool := jp, sweepPool := sp, slots := k, laneQueue := q, jobs := j, waiting := w } t
          exact ⟨_, _, _, _, _, _, _, h⟩) s ⟨_, _, _, _, _, _, _, rfl⟩
  obtain ⟨o, jp, sp, k, q, j, w, h⟩ := h (List.finRange 32)
  obtain ⟨j2, fr2, h2⟩ := ((List.finRange 32).foldl State.ageJob s).leaveAll_frame
  obtain ⟨k3, fr3, h3⟩ := ((List.finRange 32).foldl State.ageJob s).leaveAll.1.settleDrains_frame
  refine ⟨o, jp, sp, k3, q, j2, w, s.ageJobs.2, Prod.ext ?_ (Eq.refl s.ageJobs.2)⟩
  unfold State.ageJobs
  rw [thenDo_fst, h3, h2, h]

theorem State.agePulls_frame (s : State) :
    ∃ o jp sp k q j w p fr, s.agePulls =
      ({ s with order := o, jobPool := jp, sweepPool := sp, slots := k, laneQueue := q, jobs := j, waiting := w,
                sweep := p }, fr) := by
  unfold State.agePulls
  split
  · next p _ =>
    obtain ⟨o, jp, sp, k, q, j, w, fr, h⟩ := State.collapse_frame .stalled (some p.number) s
    obtain ⟨k2, fr2, h2⟩ := (State.collapse .stalled (some p.number) s).1.settleDrains_frame
    exact ⟨o, jp, sp, k2, q, j, w, _, _, Prod.ext (by rw [thenDo_fst, h2, h]) rfl⟩
  · exact ⟨_, _, _, _, _, _, _, _, _, rfl⟩

theorem State.noiseCarry_frame (s : State) :
    ∃ h n fr, s.noiseCarry = ({ s with noise := h, warmCount := n }, fr) := by
  unfold State.noiseCarry
  split
  · split
    · split <;> exact ⟨_, _, _, rfl⟩
    · exact ⟨_, _, _, rfl⟩
  · split <;> exact ⟨_, _, _, rfl⟩
  · exact ⟨_, _, _, rfl⟩
  · exact ⟨_, _, _, rfl⟩

theorem State.takeCarry_frame (s : State) (u : CarryUser) :
    ∃ o jp sp k q j w p h n fr, s.takeCarry u =
      ({ s with order := o, jobPool := jp, sweepPool := sp, slots := k, laneQueue := q, jobs := j, waiting := w,
                sweep := p, noise := h, warmCount := n }, fr) := by
  cases u with
  | jobs =>
    show ∃ o jp sp k q j w p h n fr, (if isCarry (selectedBit s.interval) s.ticks then s.ageJobs else (s, [])) = _
    split
    · obtain ⟨o, jp, sp, k, q, j, w, fr, h⟩ := s.ageJobs_frame
      exact ⟨o, jp, sp, k, q, j, w, _, _, _, fr, h⟩
    · exact ⟨_, _, _, _, _, _, _, _, _, _, _, rfl⟩
  | pulls =>
    show ∃ o jp sp k q j w p h n fr, (if isCarry (selectedBit s.interval) s.ticks then s.agePulls else (s, [])) = _
    split
    · obtain ⟨o, jp, sp, k, q, j, w, p, fr, h⟩ := s.agePulls_frame
      exact ⟨o, jp, sp, k, q, j, w, p, _, _, fr, h⟩
    · exact ⟨_, _, _, _, _, _, _, _, _, _, _, rfl⟩
  | noise =>
    obtain ⟨h, n, fr, e⟩ := s.noiseCarry_frame
    exact ⟨_, _, _, _, _, _, _, _, h, n, fr, e⟩

theorem State.advance_frame (order : CarryOrder) (s : State) :
    ∃ o jp sp k q j w p h n np nu fr, State.advance order s =
      ({ s with order := o, jobPool := jp, sweepPool := sp, slots := k, laneQueue := q, jobs := j, waiting := w,
                sweep := p, noise := h, warmCount := n, nextPull := np, nextUid := nu, ticks := s.ticks + 1 }, fr) := by
  have hc : ∃ o jp sp k q j w p h n,
      (forEach (carryUsers order) (fun u x => x.takeCarry u) { s with ticks := s.ticks + 1 }).1 =
      { s with order := o, jobPool := jp, sweepPool := sp, slots := k, laneQueue := q, jobs := j, waiting := w,
               sweep := p, noise := h, warmCount := n, ticks := s.ticks + 1 } :=
    forEach_induction (P := fun x => ∃ o jp sp k q j w p h n, x =
        { s with order := o, jobPool := jp, sweepPool := sp, slots := k, laneQueue := q, jobs := j, waiting := w,
                 sweep := p, noise := h, warmCount := n, ticks := s.ticks + 1 })
      (by rintro u - x ⟨o, jp, sp, k, q, j, w, p, h, n, rfl⟩
          obtain ⟨o, jp, sp, k, q, j, w, p, h, n, fr, e⟩ := State.takeCarry_frame
            { s with order := o, jobPool := jp, sweepPool := sp, slots := k, laneQueue := q, jobs := j, waiting := w,
                     sweep := p, noise := h, warmCount := n, ticks := s.ticks + 1 } u
          exact ⟨_, _, _, _, _, _, _, _, _, _, by rw [e]⟩) _ ⟨_, _, _, _, _, _, _, _, _, _, rfl⟩
  obtain ⟨o, jp, sp, k, q, j, w, p, h, n, e⟩ := hc
  obtain ⟨p2, np, nu, fr, e2⟩ := issueIfLeft_frame s
    (forEach (carryUsers order) (fun u x => x.takeCarry u) { s with ticks := s.ticks + 1 })
  refine ⟨o, jp, sp, k, q, j, w, p2, h, n, np, nu, fr, ?_⟩
  unfold State.advance
  rw [e2, e]

/-! ### The entry to DEEP, a DEEP request, the supply warning, the link reset -/

theorem State.enterDeep_frame (s : State) (cause : PowerCause) :
    ∃ rg l a q r k fr, s.enterDeep cause =
      ({ s with ranges := rg, lanes := l, auths := a, workQueue := q, running := r, slots := k, sweep := none,
                power := .deep, deepPending := none, noise := .stopped, warmCount := 0 }, fr) := by
  obtain ⟨q, r, k, a, fr, h⟩ := State.noiseTo_frame { s.relock.emptyAllSlots with
    auths := s.relock.emptyAllSlots.auths.map Authority.sealedNow, sweep := none, power := .deep, deepPending := none }
    .stopped
  refine ⟨s.relock.ranges, s.relock.emptyAllSlots.lanes, a, q, r, k, _, Prod.ext ?_ rfl⟩
  show (State.noiseTo _ _).1 = _
  rw [h]
  rfl

theorem State.deepEntryIfClear_frame (s : State) :
    ∃ rg l a q r k w po dp n wc fr, s.deepEntryIfClear =
      ({ s with ranges := rg, lanes := l, auths := a, workQueue := q, running := r, slots := k, sweep := w,
                power := po, deepPending := dp, noise := n, warmCount := wc }, fr) := by
  unfold State.deepEntryIfClear
  split
  · obtain ⟨rg, l, a, q, r, k, fr, h⟩ := s.enterDeep_frame .request
    exact ⟨rg, l, a, q, r, k, _, _, _, _, _, fr, h⟩
  · exact ⟨_, _, _, _, _, _, _, _, _, _, _, _, rfl⟩

/-! ### Lanes -/

theorem State.laneOutcome_frame (s : State) (w : LaneWork) (sound : Bool) :
    ∃ o jp sp k q j wt p fr, s.laneOutcome w sound =
      ({ s with order := o, jobPool := jp, sweepPool := sp, slots := k, laneQueue := q, jobs := j, waiting := wt,
                sweep := p }, fr) := by
  unfold State.laneOutcome
  split
  · next uid tag index _ =>
    split
    · unfold State.jobCompletion
      split
      · obtain ⟨jp, sp, h⟩ := s.setBuffer_frame w.buffer none
        exact ⟨_, jp, sp, _, _, _, _, _, _, Prod.ext h rfl⟩
      · next j _ =>
        split
        · obtain ⟨jp, sp, h⟩ := s.setBuffer_frame w.buffer
            (some ⟨w.owner, .finished, w.task.output s.dataSize w.format w.lba (s.lanePayload w)⟩)
          obtain ⟨j2, fr, h2⟩ := State.handOverJob_frame tag (j.reorder.length + 1)
            { s.finishBuffer w with jobs := s.jobs.set tag (some (j.finish index w.buffer)) }
          have h' : s.finishBuffer w = { s with jobPool := jp, sweepPool := sp } := h
          exact ⟨_, jp, sp, _, _, j2, _, _, fr, by rw [h2, h']⟩
        · obtain ⟨jp, sp, h⟩ := s.setBuffer_frame w.buffer none
          obtain ⟨j2, fr, h2⟩ := State.leaveIfClear_frame tag (s.freeBuffer w.buffer)
          have h' : s.freeBuffer w.buffer = { s with jobPool := jp, sweepPool := sp } := h
          exact ⟨_, jp, sp, _, _, j2, _, _, fr, by rw [h2, h']⟩
    · unfold State.jobFault
      split
      · obtain ⟨jp, sp, h⟩ := s.setBuffer_frame w.buffer none
        exact ⟨_, jp, sp, _, _, _, _, _, _, Prod.ext h rfl⟩
      · next j _ =>
        split
        · obtain ⟨o, jp, sp, k, q, j2, wt, h⟩ := s.endJob_frame tag .laneFault none
          obtain ⟨jp2, sp2, h2⟩ := (s.endJob tag .laneFault none).setBuffer_frame w.buffer (some ⟨w.owner, .finished, []⟩)
          have h2' : (s.endJob tag .laneFault none).faultBuffer w =
            { s.endJob tag .laneFault none with jobPool := jp2, sweepPool := sp2 } := h2
          obtain ⟨j3, fr, h3⟩ := State.leaveIfClear_frame tag ((s.endJob tag .laneFault none).faultBuffer w)
          exact ⟨o, jp2, sp2, k, q, j3, wt, _, _, Prod.ext (by rw [thenDo_fst, h3, h2', h]) rfl⟩
        · obtain ⟨jp, sp, h⟩ := s.setBuffer_frame w.buffer none
          obtain ⟨j2, fr, h2⟩ := State.leaveIfClear_frame tag (s.freeBuffer w.buffer)
          have h' : s.freeBuffer w.buffer = { s with jobPool := jp, sweepPool := sp } := h
          exact ⟨_, jp, sp, _, _, j2, _, _, fr, by rw [h2, h']⟩
  · next uid number offset _ =>
    split
    · unfold State.pullCompletion
      split
      · obtain ⟨jp, sp, h⟩ := s.setBuffer_frame w.buffer none
        exact ⟨_, jp, sp, _, _, _, _, _, _, Prod.ext h rfl⟩
      · next p _ =>
        obtain ⟨jp, sp, h⟩ := s.setBuffer_frame w.buffer
          (some ⟨w.owner, .finished, w.task.output s.dataSize w.format w.lba (s.lanePayload w)⟩)
        have h' : s.finishBuffer w = { s with jobPool := jp, sweepPool := sp } := h
        obtain ⟨p2, fr, h2⟩ := State.handOverPull_frame uid (p.reorder.length + 1)
          ((s.finishBuffer w).mapPull uid fun x => x.finish offset (some w.buffer))
        exact ⟨_, jp, sp, _, _, _, _, p2, fr, by rw [h2, h']; rfl⟩
    · unfold State.pullFault
      split
      · obtain ⟨jp, sp, h⟩ := s.setBuffer_frame w.buffer none
        exact ⟨_, jp, sp, _, _, _, _, _, _, Prod.ext h rfl⟩
      · obtain ⟨o, jp, sp, k, q, j, wt, fr, h⟩ := State.collapse_frame .laneFault (some number) s
        obtain ⟨jp2, sp2, h2⟩ := (State.collapse .laneFault (some number) s).1.setBuffer_frame w.buffer
          (some ⟨w.owner, .finished, []⟩)
        have h2' : (State.collapse .laneFault (some number) s).1.faultBuffer w =
          { (State.collapse .laneFault (some number) s).1 with jobPool := jp2, sweepPool := sp2 } := h2
        exact ⟨o, jp2, sp2, k, q, j, wt, _, _, Prod.ext (by simp only; rw [h2', h]) rfl⟩

end Sys2Proof.Machine
end

