-- ==== Sys2Proof/Tests/Slice0.lean ====
section
/-! SUPPORT. Tests of this model: ill-formed terms, frames written out by hand, the cipher, and one step of each command on
small states. Expected values come from spec/ (the worked sequences where they are named), from FIPS 197, or from a check
word computed apart from the model. -/

namespace Sys2Proof.Tests

open Sys2Proof Machine

set_option Elab.async false

/-! ### Small states -/

/-- The state after a command; no command stops. -/
def after (c : Instr) (s : State) : State :=
  match exec c s with
  | .next t => t
  | .fault _ | .refused _ => s

/-- The frames that a command adds to the transmit order of a state. -/
def frames (c : Instr) (s : State) : List OutFrame := (after c s).order.drop s.order.length

def openAuth : Authority := ⟨.opened, some 7, some 9, none, 0⟩

def readySlot (a : AuthNo) : KeySlot := ⟨.ready, some a, some 0x1234, 0, none⟩

def rangeAt (base length : Nat) (owner : AuthNo) (active pending : Option SlotNo) : RangeRec :=
  ⟨some ⟨base, length, owner, false, false⟩, false, false, active, pending⟩

/-- A provisioned part with every authority OPEN, ranges 0, 3 and 5 keyed, and an empty transmit order. -/
def base : State :=
  { State.reset with
    order := []
    prov := some ⟨1000000, .b512, 0, false, false⟩
    noise := .healthy
    auths := Table.replicate 4 openAuth
    ranges := ((State.reset.ranges.set 0 ⟨none, false, false, some 1, none⟩).set 3
      (rangeAt 200000 100000 1 (some 9) none)).set 5 (rangeAt 600000 100000 2 (some 14) none)
    slots := ((((State.reset.slots.set 1 (readySlot 0)).set 9 (readySlot 1)).set 12 (readySlot 1)).set 14
      (readySlot 2)).set 15 (readySlot 2) }

/-- An OPEN job of 4 sectors from LBA 250,000 in range 3, under slot 9. -/
def job : Job :=
  { uid := 0, state := .opened, stream := 0, profile := 0, format := ⟨.b512, .m0, .pass⟩, cls := 2, direction := .encipher,
    first := 250000, count := 4, segments := [⟨0, 4, 3, 9, .active⟩], nextIn := 0, nextOut := 0, reorder := [], age := 0,
    openTick := some 0, reason := none, owed := none }

def withJob (j : Job) : State := { base with jobs := base.jobs.set 6 (some j), nextTag := 7, nextUid := 1 }

def work (index : Nat) : LaneWork :=
  { owner := .job 0 6 index, buffer := .job 0, lba := 250000 + index, task := .encipher 0x1234,
    format := ⟨.b512, .m0, .pass⟩, counted := [9], since := 0 }

/-- The job with sector 0 in lane 1. -/
def inLane : State :=
  { withJob { job with nextIn := 1 } with
    lanes := base.lanes.set 1 (.busy (work 0))
    jobPool := base.jobPool.set 0 (some ⟨.job 0 6 0, .inLane, []⟩)
    slots := base.slots.set 9 { readySlot 1 with laneCount := 1 } }

/-- The sweep of range 3 of 8.6.1, with the two pulls given. -/
def sweep (st : SweepState) (pulls : List Pull) : Sweep :=
  { state := st, range := 3, oldSlot := 9, newSlot := 12, profile := 0, cls := 0, limit := 16, committed := 40000,
    issued := match pulls.getLast? with | some p => p.first + p.count - 200000 | none => 40000, pulls := pulls,
    checkpoint := 36864, blocked := false }

def pull (number : Half) (first sent : Nat) : Pull :=
  { Pull.issue (100 + number.toNat) number first 8 with received := sent, handedOver := sent, sent := sent }

def sweeping (w : Sweep) : State :=
  { base with
    sweep := some w, nextPull := 9, nextUid := 200
    ranges := base.ranges.set 3 (rangeAt 200000 100000 1 (some 9) (some 12)) }

/-- The sweep RUNNING with pulls 7 and 8, pull 8 sent but for its last sector (8.6.1). -/
def rotating : State := sweeping (sweep .running [pull 7 240000 8, pull 8 240008 7])

def payload : List Byte := List.replicate 512 5

/-- The part with an operation running in the wrap unit. -/
def running (op : WorkOp) (key : Option AuthKey) : State := { base with running := some ⟨⟨op, 5, false⟩, key, 0⟩ }

/-! ### Ill-formed terms are refused, one for each check of WellFormed -/

theorem test_illformed_request_shorter_than_its_header : (Instr.status 0 1).wellFormed = false := by decide

theorem test_illformed_request_longer_than_a_frame : (Instr.status 0 4218).wellFormed = false := by decide

theorem test_illformed_unknown_request_of_a_defined_kind : (Instr.unknownRequest 0x02 0).wellFormed = false := by decide

theorem test_illformed_discarded_frame_of_no_bytes : (Instr.frameDiscarded []).wellFormed = false := by decide

theorem test_illformed_discarded_frame_that_is_sound :
    (Instr.frameDiscarded [0x01, 0x03, 0x00, 0x04, 0x11, 0x02, 0x7C, 0x1A, 0xAB, 0xA3]).wellFormed = false := by
  decide +kernel

theorem test_illformed_job_sector_longer_than_a_frame :
    (Instr.jobSectorIn 0 0 (List.replicate 4216 0)).wellFormed = false := by decide +kernel

theorem test_illformed_sweep_sector_longer_than_a_frame :
    (Instr.sweepSectorIn 0 0 false (List.replicate 4214 0)).wellFormed = false := by decide +kernel

theorem test_wellformed_longest_job_sector :
    (Instr.jobSectorIn 0 0 (List.replicate 4215 0)).wellFormed = true := by decide +kernel

/-! ### Frames written out from 11.1 to 11.3 -/

/-- R2: the check word of the nine ASCII digits. -/
theorem test_check_word_of_nine_digits :
    checkWord [0x31, 0x32, 0x33, 0x34, 0x35, 0x36, 0x37, 0x38, 0x39] = 0xE3069283#32 := by decide +kernel

theorem test_receive_set_interval :
    receive [0x01, 0x03, 0x00, 0x04, 0x11, 0x02, 0x7C, 0x1A, 0xAB, 0xA3] = some (.setInterval 0x11 3 2) := by
  decide +kernel

theorem test_receive_set_stream :
    receive [0x01, 0x05, 0x00, 0x11, 0x20, 0x03, 0x01, 0x09, 0x88, 0xBF, 0xDF, 0xE9] =
      some (.setStream 0x20 5 3 1 9) := by decide +kernel

theorem test_receive_define_range :
    receive [0x01, 0x12, 0x00, 0x20, 0x30, 0x03, 0x40, 0x0D, 0x03, 0x00, 0x00, 0x00, 0xA0, 0x86, 0x01, 0x00, 0x00, 0x00,
      0x01, 0x00, 0x01, 0x45, 0xE8, 0x93, 0x85] = some (.defineRange 0x30 18 3 200000 100000 1 0 1) := by decide +kernel

theorem test_receive_seal_authority :
    receive [0x01, 0x03, 0x00, 0x33, 0x40, 0x02, 0x79, 0x57, 0xCD, 0x95] = some (.sealAuthority 0x40 3 2) := by
  decide +kernel

theorem test_receive_generate_key :
    receive [0x01, 0x04, 0x00, 0x41, 0x50, 0x05, 0x02, 0x82, 0xF0, 0xFF, 0x1C] = some (.generateKey 0x50 4 5 2) := by
  decide +kernel

theorem test_receive_open_job :
    receive [0x01, 0x0C, 0x00, 0x50, 0x60, 0x07, 0x01, 0xFA, 0xA8, 0x03, 0x00, 0x00, 0x00, 0x14, 0x00, 0x51, 0xB1, 0x08,
      0x44] = some (.openJob 0x60 12 7 1 239866 20) := by decide +kernel

theorem test_receive_sweep_commit :
    receive [0x01, 0x04, 0x00, 0x65, 0x70, 0xFE, 0xFF, 0x17, 0x48, 0x93, 0xF0] = some (.sweepCommit 0x70 4 65534) := by
  decide +kernel

theorem test_receive_unknown_kind :
    receive [0x01, 0x02, 0x00, 0x77, 0x01, 0xD9, 0xA4, 0x5B, 0xF5] = some (.unknownRequest 0x77 1) := by decide +kernel

theorem test_receive_job_sector :
    receive [0x02, 0x03, 0x00, 0x06, 0x02, 0xAB, 0xD9, 0xB4, 0xA3, 0x09] = some (.jobSectorIn 6 2 [0xAB]) := by
  decide +kernel

theorem test_receive_sweep_sector :
    receive [0x03, 0x04, 0x00, 0xFE, 0xFF, 0x01, 0x01, 0x64, 0x5A, 0x44, 0x34] =
      some (.sweepSectorIn 65534 1 true []) := by decide +kernel

/-- R3: one bit of the check word is wrong. -/
theorem test_receive_bad_check_word :
    frameFault [0x01, 0x02, 0x00, 0x02, 0x05, 0xEA, 0x1E, 0xB0, 0xD1] = some .check := by decide +kernel

/-- R3, test 6: a request without its number. -/
theorem test_receive_short_request :
    frameFault [0x01, 0x01, 0x00, 0x02, 0xF6, 0x03, 0x58, 0xD1] = some .form := by decide +kernel

theorem test_reply_bytes :
    (replyTo .setInterval 0x11 .ok (.interval 2 0x01020304)).bytes [] =
      [0x81, 0x08, 0x00, 0x04, 0x11, 0x00, 0x02, 0x04, 0x03, 0x02, 0x01, 0xAB, 0x65, 0x62, 0x7D] := by decide +kernel

/-- The first SWEEP-PULL of 8.10.1. -/
theorem test_notice_bytes :
    (OutFrame.notice (.sweepPull 65534 0 399996 4)).bytes [] =
      [0x84, 0x0B, 0x00, 0x05, 0xFE, 0xFF, 0x00, 0x7C, 0x1A, 0x06, 0x00, 0x00, 0x00, 0x04, 0x2E, 0x4A, 0x11, 0x03] := by
  decide +kernel

/-! ### The cipher -/

/-- FIPS 197, appendix C.3. -/
theorem test_block_encipher_fips197 :
    blockEncipher 0x1f1e1d1c1b1a191817161514131211100f0e0d0c0b0a09080706050403020100#256
      0xffeeddccbbaa99887766554433221100#128 = 0x8960494b9049fceabf456751cab7a28e#128 := by decide +kernel

/-- The doublings of R115, byte 0 in bits 0 to 7. -/
theorem test_doubling :
    double 0x40 = 0x80 ∧ double 0x80 = 0x0100 ∧ double (0x80 <<< 120) = 0x87 ∧ double ((0x80 <<< 120) ||| 1) = 0x85 := by
  decide +kernel

/-- 7.8: the data-unit number of unit 5 of LBA 0x123456, its tweak input block, and k = 8. -/
theorem test_unit_number :
    unitsPerSector .b4096 ⟨.b512, .m64, .cipher⟩ = 8 ∧ unitNumber 8 0x123456 5 = 0x91A2B5 ∧
      tweakInput 0x91A2B5 = 0x91A2B5#128 := by decide +kernel

/-- 7.8: 260 blocks, four of them metadata. -/
theorem test_metadata_blocks : metaBlocks ⟨.b512, .m64, .cipher⟩ = 4 ∧ metaBlocks ⟨.b512, .m64, .pass⟩ = 0 := by decide

/-! ### Power, hold and timebase -/

theorem test_provision_stores :
    (after (.provision 1 15 1000000 4096 2 1 0) State.reset).prov = some ⟨1000000, .b4096, 2, true, false⟩ ∧
      ((after (.provision 1 15 1000000 4096 2 1 0) State.reset).ranges.get 0).readLock = true := by decide +kernel

theorem test_provision_twice :
    frames (.provision 1 15 5 512 0 0 0) base =
      [replyTo .provision 1 .alreadySet (.provisioning ⟨1000000, .b512, 0, false, false⟩)] := by decide +kernel

theorem test_status_clears_flags : (after (.status 1 2) base).cause = ⟨.power, false, false, false⟩ := by decide +kernel

theorem test_status_with_a_field_is_refused :
    frames (.status 1 3) base = [replyTo .status 1 .badField .none] := by decide +kernel

theorem test_reset_relocks_and_empties :
    frames (.reset 4 2) base = [replyTo .reset 4 .ok .none, .notice (.started .link)] ∧
      ((after (.reset 4 2) base).slots.get 9).state = .empty ∧ ((after (.reset 4 2) base).ranges.get 3).active = none := by
  decide +kernel

theorem test_set_interval_clamps :
    frames (.setInterval 1 3 9) base = [replyTo .setInterval 1 .ok (.interval 3 0)] := by decide +kernel

theorem test_doze_stops_noise :
    frames (.doze 1 2) base = [replyTo .doze 1 .ok .none, .notice (.noiseHealth .stopped)] ∧
      (after (.doze 1 2) base).power = .doze := by decide +kernel

theorem test_doze_waits_for_jobs : frames (.doze 1 2) (withJob job) = [replyTo .doze 1 .busy .none] := by decide +kernel

/-- 10.8.1, the DEEP request: the job with nothing in a lane leaves, the sweep's checkpoint is raised. -/
theorem test_deep_waits_for_a_lane :
    (after (.deep 3 2) inLane).deepPending = some 3 ∧ (after (.deep 3 2) inLane).power = .active ∧
      frames (.deep 3 2) inLane = [] := by decide +kernel

theorem test_deep_enters_at_once :
    frames (.deep 3 2) (withJob job) =
      [.notice (.jobEnded 6 .power 0 0), replyTo .deep 3 .ok .none, .notice (.noiseHealth .stopped),
        .notice (.powerState .deep .request)] := by decide +kernel

/-- 7.10.2, the last event. -/
theorem test_release_hold :
    (after (.releaseHold 1 2) { base with hold := true, lanes := base.lanes.set 2 .offline }).hold = false := by
  decide +kernel

/-! ### Profiles and streams: 2.6 -/

theorem test_set_profile_cipher_needs_64_bytes :
    frames (.setProfile 1 7 2 512 8 1) base = [replyTo .setProfile 1 .badField .none] := by decide +kernel

theorem test_set_profile_in_use :
    frames (.setProfile 1 7 0 512 64 0) (withJob job) =
      [replyTo .setProfile 1 .inUse (.profile ⟨.b512, .m0, .pass⟩)] := by decide +kernel

theorem test_set_stream_clamps_class :
    frames (.setStream 1 5 3 1 9) base = [replyTo .setStream 1 .ok (.stream ⟨1, 3⟩)] := by decide +kernel

/-! ### Ranges -/

theorem test_define_range_overlap :
    (frames (.defineRange 1 18 4 299999 1 0 0 0) base).map (fun f => match f with | .reply _ _ c _ => some c | _ => none) =
      [some .overlap] := by decide +kernel

theorem test_define_range_locks_from_flags :
    ((after (.defineRange 1 18 4 300000 5 0 1 0) base).ranges.get 4) =
      ⟨some ⟨300000, 5, 0, true, false⟩, true, false, none, none⟩ := by decide +kernel

theorem test_bind_key : ((after (.bindKey 1 4 3 12) base).ranges.get 3).active = some 12 := by decide +kernel

/-- 3.7.1: a write lock during a write, with a sector in a lane. -/
theorem test_lock_range_ends_writes :
    ((after (.lockRange 2 5 3 0 1) inLane).jobs.get 6).map Job.state = some .ending ∧
      ((after (.lockRange 2 5 3 1 0) inLane).jobs.get 6).map Job.state = some .opened := by decide +kernel

theorem test_unlock_range_keeps_the_other_lock :
    let s := { base with ranges := base.ranges.update 3 fun r => { r with readLock := true, writeLock := true } }
    ((after (.unlockRange 2 5 3 1 0) s).ranges.get 3).readLock = false ∧
      ((after (.unlockRange 2 5 3 1 0) s).ranges.get 3).writeLock = true := by decide +kernel

theorem test_query_range_above_16 :
    frames (.queryRange 1 3 17) base = [replyTo .queryRange 1 .badField .none] := by decide +kernel

/-! ### Authorities: 4.7 and 4.8 -/

def sealed1 (failures : Nat) : State := { base with auths := base.auths.set 1 ⟨.sealed, some 7, none, none, failures⟩ }

theorem test_enrol_keeps_the_counter :
    (after (.enrol 1 51 1 5) (sealed1 4)).auths.get 1 = ⟨.sealed, some 5, none, none, 4⟩ := by decide +kernel

theorem test_create_authority_needs_healthy_noise :
    ((after (.createAuthority 1 35 1 5) { base with
      noise := .warming, auths := base.auths.set 1 (Authority.initial 0) }).auths.get 1).state = .notEnrolled := by
  decide +kernel

theorem test_unlock_authority_queues_a_check :
    ((after (.unlockAuthority 1 35 1 5) (sealed1 4)).auths.get 1).state = .checking ∧
      (after (.unlockAuthority 1 35 1 5) (sealed1 4)).workQueue = [⟨.check 1 5, 1, false⟩] ∧
      frames (.unlockAuthority 1 35 1 5) (sealed1 4) = [] := by decide +kernel

/-- 4.7: a line reset during a check at counter 4 bars the authority. -/
theorem test_line_reset_bars :
    (after .lineReset (after (.unlockAuthority 1 35 1 5) (sealed1 4))).auths.get 1 =
      ⟨.barred, none, none, none, 5⟩ := by decide +kernel

theorem test_seal_authority_erases_the_key :
    (after (.sealAuthority 1 3 2) base).auths.get 2 = ⟨.sealed, some 7, none, none, 0⟩ := by decide +kernel

theorem test_set_credential_changes_no_record :
    (after (.setCredential 1 35 2 5) base).auths = base.auths ∧
      (after (.setCredential 1 35 2 5) base).workQueue = [⟨.rewrap 2 5, 1, false⟩] := by decide +kernel

/-! ### Key slots: 5.5.1 and 5.7.1 -/

theorem test_load_key_on_a_ready_slot :
    (frames (.loadKey 7 84 9 1 0) base).map (fun f => match f with | .reply _ _ c _ => some c | _ => none) =
      [some .slotBusy] := by decide +kernel

theorem test_generate_key_records_the_authority :
    (after (.generateKey 7 4 2 0) base).slots.get 2 = ⟨.generating, some 0, none, 0, none⟩ := by decide +kernel

theorem test_purge_key_drains :
    let s := { base with
      slots := base.slots.set 15 { readySlot 2 with laneCount := 2 } }
    ((after (.purgeKey 6 3 15) s).slots.get 15).drain = some (.purge 6) ∧ frames (.purgeKey 6 3 15) s = [] := by
  decide +kernel

theorem test_purge_key_of_a_named_slot :
    (frames (.purgeKey 6 3 9) base).map (fun f => match f with | .reply _ _ c _ => some c | _ => none) =
      [some .inUse] := by decide +kernel

theorem test_query_slot_changes_nothing :
    after (.querySlot 1 3 9) base = { base with order := frames (.querySlot 1 3 9) base } := by decide +kernel

/-! ### Jobs: 6.3.1, 6.5.1 -/

/-- 6.3.1, job A: the split at the cursor 240,000. -/
theorem test_open_job_splits_at_the_cursor :
    ((after (.openJob 1 12 0 0 239990 20) (sweeping (sweep .paused []))).jobs.get 0).map Job.segments =
      some [⟨0, 10, 3, 12, .pending⟩, ⟨10, 10, 3, 9, .active⟩] := by decide +kernel

/-- 8.6.1: a span in the window waits. -/
theorem test_open_job_waits_for_the_window :
    frames (.openJob 1 12 0 1 240010 4) rotating = [replyTo .openJob 1 .ok (.opened 0 .waiting)] := by decide +kernel

theorem test_end_job_owes_its_reply :
    ((after (.endJob 3 3 6) inLane).jobs.get 6).map Job.owed = some (some 3) ∧ frames (.endJob 3 3 6) inLane = [] := by
  decide +kernel

theorem test_query_job_of_a_free_tag :
    frames (.queryJob 3 3 5) base = [replyTo .queryJob 3 .ok (.job ⟨5, none⟩)] := by decide +kernel

/-! ### The sweep: 8.6.1, 8.10.1, 8.10.2 -/

theorem test_start_sweep_paused :
    ((after (.startSweep 1 16 3 12 0 16 0 40000 1) base).sweep.map fun w => (w.committed, w.issued, w.checkpoint)) =
      some (40000, 40000, 36864) := by decide +kernel

theorem test_start_sweep_issues_two_pulls :
    (frames (.startSweep 1 16 3 12 0 16 0 40000 0) base).drop 1 =
      [.notice (.sweepPull 0 3 240000 8), .notice (.sweepPull 1 3 240008 8)] := by decide +kernel

theorem test_pause_sweep_with_pulls :
    ((after (.pauseSweep 1 2) rotating).sweep.map Sweep.state) = some .pausing := by decide +kernel

theorem test_cancel_sweep_collapses :
    ((after (.cancelSweep 1 2) rotating).sweep.map fun w => (w.issued, w.pulls)) = some (40000, []) ∧
      (frames (.cancelSweep 1 2) rotating).drop 1 = [.notice (.sweepPaused 3 40000 (some .cancelled) none)] := by
  decide +kernel

theorem test_resume_sweep_issues :
    (frames (.resumeSweep 1 2) (sweeping (sweep .paused []))).drop 1 =
      [.notice (.sweepPull 9 3 240000 8), .notice (.sweepPull 10 3 240008 8)] := by decide +kernel

theorem test_abandon_sweep_after_a_commit :
    (frames (.abandonSweep 1 2) (sweeping (sweep .paused []))).map
      (fun f => match f with | .reply _ _ c _ => some c | _ => none) = [some .migrated] := by decide +kernel

/-- 8.6.1: pull 8 is not wholly sent. -/
theorem test_sweep_commit_incomplete :
    (frames (.sweepCommit 1 4 8) rotating).map (fun f => match f with | .reply _ _ c _ => some c | _ => none) =
      [some .incomplete] := by decide +kernel

/-- 8.6.1: the commit of pull 7 behind a committed pull 8 moves the cursor to 40,016. -/
theorem test_sweep_commit_moves_the_cursor :
    let s := sweeping (sweep .running [pull 7 240000 8, { pull 8 240008 8 with committed := true }])
    ((after (.sweepCommit 1 4 7) s).sweep.map Sweep.committed) = some 40016 ∧
      (frames (.sweepCommit 1 4 7) s).drop 1 =
        [.notice (.sweepPull 9 3 240016 8), .notice (.sweepPull 10 3 240024 8)] := by decide +kernel

/-! ### Frames that are no request, sectors, the transmitter -/

theorem test_unknown_request :
    frames (.unknownRequest 0x77 1) base = [.reply 0x77 1 .unknownRequest .none] := by decide +kernel

theorem test_discarded_frame_wakes :
    frames (.frameDiscarded [1]) { base with power := .doze, noise := .stopped } =
      [.notice (.linkError .form 1)] ∧
      (after (.frameDiscarded [1]) { base with power := .doze, noise := .stopped }).noise = .warming := by decide +kernel

/-- 2.6: a payload of the wrong length. -/
theorem test_job_sector_length :
    frames (.jobSectorIn 6 0 []) (withJob job) = [.jobSector 6 0 .length none none] := by decide +kernel

theorem test_job_sector_joins_the_lane_queue :
    ((after (.jobSectorIn 6 0 payload) (withJob job)).laneQueue.map fun e => (e.lba, e.op, e.cls)) =
      [(250000, .encipher 9, 2)] := by decide +kernel

/-- 8.10.2: a sector of a dropped pull. -/
theorem test_sweep_sector_stale :
    frames (.sweepSectorIn 3 0 false payload) base = [.sweepSector 3 0 .stale none none] := by decide +kernel

theorem test_sweep_sector_unwritten :
    frames (.sweepSectorIn 8 7 true []) rotating = [.sweepSector 8 7 .unwritten none (some 108)] := by decide +kernel

theorem test_transmit_start :
    (after .transmitStart { base with order := [replyTo .setInterval 0x11 .ok (.interval 2 0x01020304)] }).sending =
      some [0x81, 0x08, 0x00, 0x04, 0x11, 0x00, 0x02, 0x04, 0x03, 0x02, 0x01, 0xAB, 0x65, 0x62, 0x7D] := by decide +kernel

/-- 8.6.1: the last sector-out of pull 8 is sent, and its buffer freed. -/
theorem test_frame_sent_counts_a_sector :
    let s := { rotating with
      order := [.sweepSector 8 7 .ok (some (.sweep 0)) (some 108)], sending := some []
      sweepPool := base.sweepPool.set 0 (some ⟨.pull 108 8 7, .finished, []⟩) }
    ((after .frameSent s).sweep.map fun w => w.pulls.map Pull.sent) = some [8, 8] ∧
      (after .frameSent s).sweepPool.get 0 = none := by decide +kernel

/-! ### Lanes: 6.5.1, 7.10.1, 7.10.2 -/

def waitingEntry (uid index arrival : Nat) (cls : ClassNo) : QueueEntry :=
  { owner := .job uid 6 index, buffer := .job 0, lba := 250000, op := .encipher 9, cls := cls,
    format := ⟨.b512, .m0, .pass⟩, arrival := arrival }

/-- 7.10.1: class 1 before the earlier class 2. -/
theorem test_grant_by_class :
    (after .laneGrant { base with laneQueue := [waitingEntry 0 2 1 2, waitingEntry 0 0 3 1, waitingEntry 0 3 4 2] }).laneQueue.map
      QueueEntry.arrival = [1, 4] := by decide +kernel

/-- 7.10.2: a fault on a job's only sector in a lane. -/
theorem test_lane_fault :
    (inLane.complete 1 (work 0) false).2 =
      [.jobSector 6 0 .laneFault (some (.job 0)) none, .notice (.jobEnded 6 .laneFault 1 0), .notice (.hold 1)] ∧
      (inLane.complete 1 (work 0) false).1.hold = true := by decide +kernel

/-- 6.5.1: the completion at next-out is handed over, the lane count falls. -/
theorem test_lane_completion_hands_over :
    (inLane.complete 1 (work 0) true).2 = [.jobSector 6 0 .ok (some (.job 0)) (some 0)] ∧
      ((inLane.complete 1 (work 0) true).1.slots.get 9).laneCount = 0 := by decide +kernel

theorem test_lane_completion_of_an_idle_lane : after (.laneCompletion 0 0 0) inLane = inLane := by decide +kernel

/-! ### The wrap unit: 4.8, 5.7.1 -/

/-- 4.8: a rewrap that reaches the wrap unit with its authority not OPEN. -/
theorem test_rewrap_of_a_sealed_authority :
    (frames .wrapUnitStart { sealed1 0 with workQueue := [⟨.rewrap 1 5, 3, false⟩] }).map
      (fun f => match f with | .reply k n c _ => some (k, n, c) | _ => none) = [some (0x34, 3, .notAuthorised)] := by
  decide +kernel

/-- 5.7.1: a marked generation ends NOISE-LOST, its slot EMPTY. -/
theorem test_marked_generation :
    let s := { base with
      workQueue := [⟨.generation 0 4, 3, true⟩], slots := base.slots.set 4 ⟨.generating, some 0, none, 0, none⟩ }
    ((after .wrapUnitStart s).slots.get 4).state = .empty ∧ (after .wrapUnitStart s).running = none := by decide +kernel

/-- A key blob that this part has made opens under its authority's key alone (R50). -/
theorem test_unwrap_of_a_made_blob :
    let s := { running (.unwrap 0 4 77) (some 9) with keyLog := [⟨0, 9, 77, 0x55⟩] }
    (after .unwrapComplete s).slots.get 4 = ⟨.ready, none, some 0x55, 0, none⟩ := by decide +kernel

theorem test_unwrap_under_another_key :
    let s := { running (.unwrap 0 4 77) (some 8) with keyLog := [⟨0, 9, 77, 0x55⟩] }
    ((after .unwrapComplete s).slots.get 4).state = .empty := by decide +kernel

theorem test_generation_makes_ready :
    ((after .generationComplete (running (.generation 0 4) (some 9))).slots.get 4).state = .ready := by decide +kernel

/-- 4.7: a bad check. -/
theorem test_bad_check_counts :
    let s := { running (.check 1 6) none with
      auths := base.auths.set 1 ⟨.checking, some 7, none, some .check, 0⟩, verifierLog := [⟨1, 5, 7, 9⟩] }
    (after .checkComplete s).auths.get 1 = ⟨.sealed, some 7, none, none, 1⟩ := by decide +kernel

/-- 4.7: a good check at counter 2. -/
theorem test_good_check_clears :
    let s := { running (.check 1 5) none with
      auths := base.auths.set 1 ⟨.checking, some 7, none, some .check, 2⟩, verifierLog := [⟨1, 5, 7, 9⟩] }
    (after .checkComplete s).auths.get 1 = ⟨.opened, some 7, some 9, none, 0⟩ := by decide +kernel

theorem test_creation_opens :
    let s := { running (.creation 1 5) none with auths := base.auths.set 1 ⟨.checking, none, none, some .create, 3⟩ }
    ((after .creationComplete s).auths.get 1).state = .opened ∧ ((after .creationComplete s).auths.get 1).failures = 3 := by
  decide +kernel

theorem test_rewrap_keeps_the_key :
    ((after .rewrapComplete (running (.rewrap 1 5) (some 9))).auths.get 1).key = some 9 := by decide +kernel

/-! ### Time and noise: 9.6, 5.7.1, 8.10.2 -/

theorem test_tick_wraps :
    (after (.tick .jobsPullsNoise) { base with ticks := 0xFFFFFFFF }).ticks = 0 := by decide +kernel

/-- 9.6: the carry at 1,179,648 of bit 16 ends a job at age 2. -/
theorem test_job_stall :
    frames (.jobStall .jobsPullsNoise) { withJob { job with age := 2 } with ticks := 1179647, interval := 1 } =
      [.notice (.jobEnded 6 .stalled 0 0)] := by decide +kernel

/-- 8.10.2: the third carry collapses the sweep. -/
theorem test_pull_stall :
    frames (.pullStall .noisePullsJobs)
      { sweeping (sweep .running [{ pull 3 240000 0 with age := 2 }]) with ticks := 0x3FFFF } =
      [.notice (.sweepPaused 3 40000 (some .stalled) (some 3))] := by decide +kernel

theorem test_noise_healthy :
    frames (.noiseHealthy .jobsPullsNoise) { base with noise := .warming, warmCount := 3, ticks := 0x3FFF } =
      [.notice (.noiseHealth .healthy)] := by decide +kernel

theorem test_noise_retry :
    (after (.noiseRetry .jobsPullsNoise) { base with noise := .degraded, ticks := 0xFFFFF }).noise = .warming := by
  decide +kernel

/-- 5.7.1: the running generation is lost behind the notice. -/
theorem test_sample_test_failure :
    (frames .sampleTestFailure (running (.generation 0 2) (some 9))).map
      (fun f => match f with | .reply _ _ c _ => some c | _ => none) = [none, some .noiseLost] := by decide +kernel

/-! ### Resets and the parts of events -/

theorem test_power_on_reset_and_its_end :
    after .resetEnd (after .powerOnReset base) = State.reset := by decide +kernel

theorem test_supply_warning :
    frames .supplyWarning inLane =
      [.notice (.jobEnded 6 .power 1 0), .notice (.noiseHealth .stopped), .notice (.powerState .deep .supply)] := by
  decide +kernel

theorem test_deep_entry :
    frames .deepEntry { base with deepPending := some 3 } =
      [replyTo .deep 3 .ok .none, .notice (.noiseHealth .stopped), .notice (.powerState .deep .request)] := by
  decide +kernel

theorem test_drain_complete :
    ((after (.drainComplete 15) { base with
      slots := base.slots.set 15 { readySlot 2 with state := .draining, drain := some .retire } }).slots.get 15).state =
      .empty := by decide +kernel

theorem test_job_leave :
    frames (.jobLeave 6) (withJob { job with state := .ending, reason := some .locked, nextIn := 3, nextOut := 1 }) =
      [.notice (.jobEnded 6 .locked 3 1)] := by decide +kernel

theorem test_job_admission :
    frames (.jobAdmission 6)
      { withJob { job with state := .waiting, segments := [], openTick := none } with waiting := [6] } =
      [.notice (.jobAdmitted 6 1)] := by decide +kernel

theorem test_issue_step :
    frames .issueStep (sweeping (sweep .running [])) =
      [.notice (.sweepPull 9 3 240000 8), .notice (.sweepPull 10 3 240008 8)] := by decide +kernel

theorem test_sweep_pause_complete :
    frames .sweepPauseComplete (sweeping (sweep .pausing [])) = [.notice (.sweepPaused 3 40000 none none)] := by
  decide +kernel

/-! ### The queue -/

theorem test_step_takes_the_front :
    step { base with pending := [.status 1 2, .doze 2 2] } = exec (.status 1 2) { base with pending := [.doze 2 2] } := rfl

theorem test_no_word_spells_a_command : decodeTableWord 8 2 = none ∧ base.withFetchWord 8 2 = base := ⟨rfl, rfl⟩

end Sys2Proof.Tests
end

