-- ==== Sys2Proof/Tests/Witness.lean ====
section
/-! SUPPORT. For each statement with hypotheses, and each of its clauses, a concrete state and operands that meet them
together. The theorem `witness_<statement>` is named after the statement. -/

namespace Sys2Proof.Tests

open Sys2Proof Machine

set_option Elab.async false

theorem eachSome {α : Type} {n : Nat} {f : Fin n → Option α} {p : Fin n → α → Prop} (h : ∀ t, ∀ j ∈ f t, p t j) :
    ∀ t j, f t = some j → p t j := fun t j e => h t j e

/-! ### States that meet the invariants -/

/-- The job of `Slice0.lean` with sector 0 in lane 1, a sweep of range 3 with one pull, a check of authority 3 queued, and a
LOCK-RANGE that waits. -/
def full : State :=
  { inLane with
    sweep := some (sweep .running [pull 7 240000 0])
    nextUid := 200
    nextPull := 8
    ranges := base.ranges.set 3 (rangeAt 200000 100000 1 (some 9) (some 12))
    auths := base.auths.set 3 ⟨.checking, some 7, none, some .check, 2⟩
    workQueue := [⟨.check 3 6, 1, false⟩]
    pending := [.lockRange 2 5 3 0 1] }

def authOk (r : Authority) : Bool :=
  match r.state with
  | .notEnrolled => r.blob == none && r.key == none && r.op == none && decide (r.failures ≤ 4)
  | .sealed => r.blob.isSome && r.key == none && r.op == none && decide (r.failures ≤ 4)
  | .checking =>
    r.key == none && decide (r.failures ≤ 4) &&
      ((r.op == some .check && r.blob.isSome) || (r.op == some .create && r.blob == none))
  | .opened => r.blob.isSome && r.key.isSome && r.op == none && decide (r.failures ≤ 4)
  | .barred => r.blob == none && r.key == none && r.op == none && r.failures == 5

theorem wellFormed_of_authOk {r : Authority} (h : authOk r = true) : r.wellFormed := by
  unfold authOk at h
  unfold Authority.wellFormed
  split at h <;> simp_all

def slotOk (r : KeySlot) : Bool :=
  match r.state with
  | .empty => r.auth == none && r.key == none && r.drain == none
  | .unwrapping | .generating => r.auth.isSome && r.key == none && r.drain == none
  | .ready => r.auth.isSome && r.key.isSome && r.drain == none
  | .draining => r.auth.isSome && r.key.isSome && r.drain.isSome

theorem wellFormed_of_slotOk {r : KeySlot} (h : slotOk r = true) : r.wellFormed := by
  unfold slotOk at h
  unfold KeySlot.wellFormed
  split at h <;> simp_all

/-- What decides `State.AuthoritiesSettled` where no rewrap runs. -/
theorem authorities_of_checks {s : State} (h1 : ∀ a, authOk (s.auths.get a) = true)
    (h2 : ∀ a, s.settling a = (s.auths.get a).op.toList) (h3 : s.running = none) (h4 : s.workQueue.length ≤ 4) :
    s.AuthoritiesSettled where
  records a := wellFormed_of_authOk (h1 a)
  checking := h2
  rewrap r a c h := by rw [h3] at h; cases h
  room := h4

/-- What decides `State.KeysSettled`. -/
abbrev KeyChecks (s : State) : Prop :=
  (∀ k, slotOk (s.slots.get k) = true ∧ s.fillings k = (s.slots.get k).expects) ∧
    (s.deepPending.isSome = true → s.workQueue = [] ∧ s.running = none) ∧
    (∀ r, ∀ k ∈ (s.ranges.get r).active.toList ++ (s.ranges.get r).pending.toList, (s.slots.get k).state = .ready) ∧
    (∀ r, r ≠ 0 → (s.ranges.get r).definition = none →
      (s.ranges.get r).active = none ∧ (s.ranges.get r).pending = none) ∧
    (∀ r, (s.ranges.get r).pending.isSome = true → ∃ w ∈ s.sweep, w.range = r) ∧
    ∀ w ∈ s.sweep, (s.ranges.get w.range).active = some w.oldSlot ∧
      (s.ranges.get w.range).pending = some w.newSlot ∧ w.oldSlot ≠ w.newSlot

theorem keys_of_checks {s : State} (h : KeyChecks s) : s.KeysSettled where
  records k := wellFormed_of_slotOk (h.1 k).1
  filled k := (h.1 k).2
  entering := h.2.1
  named r k hk := h.2.2.1 r k (by simpa [List.mem_append, Option.mem_toList] using hk)
  undefined := h.2.2.2.1
  pending := h.2.2.2.2.1
  swept := h.2.2.2.2.2

theorem full_authorities : full.AuthoritiesSettled :=
  authorities_of_checks (by decide +kernel) (by decide +kernel) rfl (by decide +kernel)

theorem full_keys : full.KeysSettled :=
  keys_of_checks (by decide +kernel)

theorem base_authorities : base.AuthoritiesSettled :=
  authorities_of_checks (by decide +kernel) (by decide +kernel) rfl (by decide +kernel)

theorem base_keys : base.KeysSettled :=
  keys_of_checks (by decide +kernel)

theorem full_power : full.PowerSettled where
  mark := by decide +kernel
  noise := by decide +kernel
  warm := by decide +kernel
  held := by decide +kernel

theorem full_busy {l : LaneNo} {w : LaneWork} (h : full.lanes.get l = .busy w) : l = 1 ∧ w = work 0 := by
  have h1 : ∀ m : LaneNo, m ≠ 1 → full.lanes.get m = .idle := by decide +kernel
  by_cases e : l = 1
  · subst e
    have h2 : full.lanes.get 1 = .busy (work 0) := by decide +kernel
    rw [h2] at h
    exact ⟨rfl, (Lane.busy.inj h).symm⟩
  · rw [h1 l e] at h
    cases h

theorem full_job {t : Tag} {j : Job} (h : full.jobs.get t = some j) : t = 6 ∧ j = { job with nextIn := 1 } := by
  have h1 : ∀ u : Tag, u ≠ 6 → full.jobs.get u = none := by decide +kernel
  by_cases e : t = 6
  · subst e
    have h2 : full.jobs.get 6 = some { job with nextIn := 1 } := by decide +kernel
    rw [h2] at h
    exact ⟨rfl, (Option.some.inj h).symm⟩
  · rw [h1 t e] at h
    cases h

theorem full_owner : full.ownerNamed (.job 0 6 0) := by
  intro uid tag index h
  obtain ⟨rfl, rfl, rfl⟩ := Owner.job.inj h
  exact ⟨by decide +kernel, fun t j hj _ => (full_job hj).1⟩

theorem full_jobs : full.JobsSettled where
  below t j h := by obtain ⟨rfl, rfl⟩ := full_job h; decide +kernel
  apart t u j k h1 h2 _ := (full_job h1).1.trans (full_job h2).1.symm
  inLanes l w h := by obtain ⟨rfl, rfl⟩ := full_busy h; exact full_owner
  inQueue e h := by cases h
  ending t j h e := by obtain ⟨rfl, rfl⟩ := full_job h; cases e
  owed t j h e := by obtain ⟨rfl, rfl⟩ := full_job h; cases e

theorem full_deep : full.DeepSettled where
  power := full_power
  jobs := full_jobs
  keys := full_keys
  auths := full_authorities
  entering := by intro h; cases h
  busy := by intro h; cases h
  deep := by intro h; cases h

/-- What decides `State.RangesSettled`. -/
abbrev RangeChecks (s : State) : Prop :=
  (∀ p ∈ s.prov, 1 ≤ p.capacity ∧ p.capacity ≤ 2 ^ 48) ∧ (s.ranges.get 0).definition = none ∧
    (∀ r, ∀ d ∈ (s.ranges.get r).definition, ∃ p ∈ s.prov, 1 ≤ d.length ∧ d.base + d.length ≤ p.capacity) ∧
    (∀ r q, ∀ d ∈ (s.ranges.get r).definition, ∀ e ∈ (s.ranges.get q).definition,
      r = q ∨ d.base + d.length ≤ e.base ∨ e.base + e.length ≤ d.base) ∧
    ∀ r, r ≠ 0 → (s.ranges.get r).definition = none →
      (s.ranges.get r).readLock = false ∧ (s.ranges.get r).writeLock = false

theorem ranges_of_checks {s : State} (h : RangeChecks s) : s.RangesSettled where
  capacity := h.1
  zero := h.2.1
  within := h.2.2.1
  apart r q d e x hr hq hd he := by
    have := h.2.2.2.1 r q d hr e hq
    simp only [RangeDef.covers] at hd he
    omega
  unlocked := h.2.2.2.2

theorem full_ranges : full.RangesSettled := ranges_of_checks (by decide +kernel)

/-- Lookup in a state whose range 3 is that of `base`, and whose lower ranges are UNDEFINED. -/
theorem lookup_three {s : State} {x : Nat} (h : 200000 ≤ x ∧ x < 300000)
    (h0 : ∀ q : RangeNo, q < 3 → (s.ranges.get q).definition = none)
    (h3 : (s.ranges.get 3).definition = some ⟨200000, 100000, 1, false, false⟩) : s.lookup x = 3 := by
  have e : s.lookup x =
      match (List.finRange 17).find? (fun i => (s.ranges.get i).contains x) with | some r => r | none => 0 := rfl
  rw [e]
  have hn : ∀ q : RangeNo, q < 3 → (s.ranges.get q).contains x = false := by
    intro q hq
    simp [RangeRec.contains, h0 q hq]
  have h4 : (s.ranges.get 3).contains x = true := by
    simp [RangeRec.contains, h3]
    omega
  have : (List.finRange 17) = [0, 1, 2] ++ 3 :: (List.finRange 17).drop 4 := by decide
  rw [this]
  simp [hn 0 (by decide), hn 1 (by decide), hn 2 (by decide), h4]

theorem full_lookup {x : Nat} (h : 200000 ≤ x ∧ x < 300000) : full.lookup x = 3 :=
  lookup_three h (by decide +kernel) (by decide +kernel)

theorem full_record : (sweep .running [pull 7 240000 0]).Settled full where
  limit := by decide +kernel
  outstanding := by decide +kernel
  pulls p h := by obtain rfl := List.mem_singleton.mp h; exact ⟨by decide, by decide⟩
  ascending := by simp [sweep]
  above p h := by obtain rfl := List.mem_singleton.mp h; decide +kernel
  below p h := by obtain rfl := List.mem_singleton.mp h; decide +kernel
  cursors := by decide +kernel
  extent _ := ⟨⟨200000, 100000, 1, false, false⟩, by decide +kernel, by decide +kernel⟩
  capacity := by decide +kernel
  lookup p h x hx := by
    obtain rfl := List.mem_singleton.mp h
    refine full_lookup ?_
    simp only [Pull.covers, pull, Pull.issue] at hx
    omega
  cover x _ h1 h2 := by
    refine ⟨_, List.mem_singleton.mpr rfl, ?_⟩
    have e1 : full.cursorBase (sweep .running [pull 7 240000 0]).range = 200000 := by decide +kernel
    rw [e1] at h1 h2
    simp only [sweep, pull, Pull.issue, List.getLast?_singleton] at h1 h2
    simp only [Pull.covers, pull, Pull.issue]
    omega
  last p h := by
    obtain rfl := Option.some.inj (h : some _ = some p)
    decide +kernel
  empty := by intro h; cases h
  paused := by intro h; cases h

theorem full_sweep : full.SweepSettled where
  ranges := full_ranges
  record w h := by obtain rfl := Option.some.inj (h : some _ = some w); exact full_record
  clear w h p hp t j x hj _ hx hy := by
    obtain rfl := Option.some.inj (h : some _ = some w)
    obtain rfl := List.mem_singleton.mp hp
    obtain ⟨rfl, rfl⟩ := full_job hj
    simp only [Pull.covers, pull, Pull.issue, Job.covers, job] at hx hy
    omega

theorem full_segments : full.SegmentsSettled where
  sweep := full_sweep
  deep := full_deep
  span t j h := by obtain ⟨rfl, rfl⟩ := full_job h; decide +kernel
  partition t j h _ := by
    obtain ⟨rfl, rfl⟩ := full_job h
    exact ⟨rfl, by decide, rfl⟩
  keyed t j h _ g hg := by
    obtain ⟨rfl, rfl⟩ := full_job h
    obtain rfl := List.mem_singleton.mp hg
    refine ⟨fun x h1 h2 => full_lookup ?_, .inl ⟨by decide +kernel, fun w hw _ => ?_⟩⟩
    · simp only [job] at h1 h2
      omega
    · obtain rfl := Option.some.inj (hw : some _ = some w)
      decide +kernel

/-- Sector 0 of the job is the one sector of `full`. -/
theorem full_places : full.held = [(.job 0, .inLane)] ∧ full.sectors = [.job 0 6 0] ∧ full.laneWorks = [work 0] ∧
    full.pulls = [pull 7 240000 0] ∧ full.jobPool.get 0 = some ⟨.job 0 6 0, .inLane, []⟩ ∧
    (∀ i : Fin 16, i ≠ 0 → full.jobPool.get i = none) ∧ ∀ i : Fin 4, full.sweepPool.get i = none := by decide +kernel

theorem full_pull {p : Pull} (h : p ∈ full.pulls) : p = pull 7 240000 0 := by
  rw [full_places.2.2.2.1] at h
  exact List.mem_singleton.mp h

theorem full_buffer {b : BufRef} {x : Buffer} (h : full.buffer b = some x) :
    b = .job 0 ∧ x = ⟨.job 0 6 0, .inLane, []⟩ := by
  obtain ⟨-, -, -, -, h1, h2, h3⟩ := full_places
  cases b with
  | job i =>
    have h : full.jobPool.get i = some x := h
    by_cases e : i = 0
    · subst e
      rw [h1] at h
      exact ⟨rfl, (Option.some.inj h).symm⟩
    · rw [h2 i e] at h
      cases h
  | sweep i =>
    have h : full.sweepPool.get i = some x := h
    rw [h3] at h
    cases h

theorem full_sectors : full.SectorsSettled where
  apart := by rw [full_places.1]; decide
  stages b stage := by
    rw [full_places.1]
    constructor
    · intro h
      obtain ⟨rfl, rfl⟩ := Prod.mk.inj (List.mem_singleton.mp h)
      exact ⟨_, full_places.2.2.2.2.1, rfl⟩
    · rintro ⟨x, h, rfl⟩
      obtain ⟨rfl, rfl⟩ := full_buffer h
      exact List.mem_singleton.mpr rfl
  queueOwners e h := by cases h
  laneOwners w h := by
    rw [full_places.2.2.1] at h
    obtain rfl := List.mem_singleton.mp h
    exact ⟨_, full_places.2.2.2.2.1, rfl⟩
  jobBuffers i x h := by
    obtain ⟨-, rfl⟩ := full_buffer (b := .job i) h
    exact ⟨0, 6, 0, rfl⟩
  sweepBuffers i x h := by cases (full_buffer (b := .sweep i) h).1
  counts := by decide +kernel
  keyless k h := by
    have h1 : ∀ n : SlotNo, (full.slots.get n).laneCount = 0 ∨ (full.slots.get n).state = .ready := by decide +kernel
    rcases h1 k with e | e
    · exact e
    · exact absurd (.inl e) h
  drains := by decide +kernel
  once := by rw [full_places.2.1]; decide
  queued e h := by cases h
  inLanes w h := by
    rw [full_places.2.2.1] at h
    obtain rfl := List.mem_singleton.mp h
    exact .inl ⟨{ job with nextIn := 1 }, by decide +kernel, rfl, rfl, by decide, by decide⟩
  jobReorder t j h f hf := by
    obtain ⟨rfl, rfl⟩ := full_job h
    cases hf
  jobCounts t j h := by
    obtain ⟨rfl, rfl⟩ := full_job h
    decide
  pullReorder p h f hf := by
    obtain rfl := full_pull h
    cases hf
  pullNames := by
    rw [full_places.2.2.2.1]
    refine ⟨by decide, fun p h => ?_⟩
    obtain rfl := List.mem_singleton.mp h
    decide
  pullCounts p h := by
    obtain rfl := full_pull h
    decide +kernel
  frames f h := by cases h

/-! ### Helpers for hypotheses over lanes, jobs and LBAs -/

theorem takes {s : State} (h : (!s.inReset && s.deepPending.isNone) = true) : s.takesRequests := by
  unfold State.takesRequests
  simpa using h

theorem notBusy {s : State} (h : ∀ l, (s.lanes.get l).isBusy = false) : ∀ l w, s.lanes.get l ≠ .busy w := by
  intro l w e
  have := h l
  simp [e, Lane.isBusy] at this

/-- The part while it enters DEEP, without its provisioning record, in DOZE, and with no authority OPEN. -/
def entering : State := { base with deepPending := some 3 }

def unprovisioned : State := { base with prov := none }

def dozing : State := { base with power := .doze, noise := .stopped }

def withAuth (a : AuthNo) (r : Authority) : State := { base with auths := base.auths.set a r }

def withSlot (k : SlotNo) (r : KeySlot) : State := { base with slots := base.slots.set k r }

def withWork (l : List WorkItem) : State := { base with workQueue := l }

/-- Four operations: the Key Work Queue is full. -/
def fullQueue : List WorkItem := [⟨.rewrap 0 5, 1, false⟩, ⟨.rewrap 0 5, 2, false⟩, ⟨.rewrap 0 5, 3, false⟩,
  ⟨.rewrap 0 5, 4, false⟩]

def offlineLanes : State := { base with lanes := Table.replicate 4 .offline }

theorem base_busy : ∀ l w, base.lanes.get l ≠ .busy w := notBusy (by decide +kernel)

theorem inLane_busy {l : LaneNo} {w : LaneWork} (h : inLane.lanes.get l = .busy w) : l = 1 ∧ w = work 0 := full_busy h

theorem inLane_sector : inLane.sectorInLane 0 := ⟨1, work 0, 6, 0, by decide +kernel, rfl⟩

theorem noSector {s : State} {uid : Nat} (h : s.jobInLane uid = false) : ¬ s.sectorInLane uid := by
  rintro ⟨l, w, tag, index, hl, hw⟩
  have := Table.any_false_iff.mp h l
  simp [hl, Lane.worksFor, hw, Owner.isJob] at this

theorem inLane_jobs : inLane.JobsSettled where
  below t j h := by obtain ⟨rfl, rfl⟩ := full_job h; decide +kernel
  apart t u j k h1 h2 _ := (full_job h1).1.trans (full_job h2).1.symm
  inLanes l w h := by
    obtain ⟨rfl, rfl⟩ := full_busy h
    intro uid tag index e
    obtain ⟨rfl, rfl, rfl⟩ := Owner.job.inj e
    exact ⟨by decide +kernel, fun t j hj _ => (full_job hj).1⟩
  inQueue e h := by cases h
  ending t j h e := by obtain ⟨rfl, rfl⟩ := full_job h; cases e
  owed t j h e := by obtain ⟨rfl, rfl⟩ := full_job h; cases e

theorem withJob_jobs : (withJob job).JobsSettled where
  below := eachSome (by decide +kernel)
  apart t u j k h1 h2 _ := by
    have h : ∀ v : Tag, v ≠ 6 → (withJob job).jobs.get v = none := by decide +kernel
    have e1 : t = 6 := by by_contra e; rw [h t e] at h1; cases h1
    have e2 : u = 6 := by by_contra e; rw [h u e] at h2; cases h2
    rw [e1, e2]
  inLanes l w h := absurd h (base_busy l w)
  inQueue e h := by cases h
  ending t j h e := by
    have := (by decide +kernel : ∀ t, ∀ j ∈ (withJob job).jobs.get t, j.state ≠ .ending) t j h
    exact absurd e this
  owed t j h e := by
    have := (by decide +kernel : ∀ t, ∀ j ∈ (withJob job).jobs.get t, j.owed = none) t j h
    rw [this] at e
    cases e

theorem base_jobs : base.JobsSettled where
  below := eachSome (by decide +kernel)
  apart := by
    intro t u j k h
    rw [(by decide +kernel : ∀ v : Tag, base.jobs.get v = none) t] at h
    cases h
  inLanes l w h := absurd h (base_busy l w)
  inQueue e h := by cases h
  ending t j h := by
    rw [(by decide +kernel : ∀ v : Tag, base.jobs.get v = none) t] at h
    cases h
  owed := eachSome (by decide +kernel)

/-! ### Witnesses: the machine as a whole, resets, frames -/

theorem witness_CommandsKeepTheQueue : Answers (.status 1 2) base (after (.status 1 2) base) := rfl

/-- For the clause on checks: authority 3 at counter 2, and at counter 4; for the other: OPEN and BARRED. -/
theorem witness_LineResetKeepsBarsAndCounters :
    full.AuthoritiesSettled ∧ (full.auths.get 3).op = some .check ∧ (full.auths.get 3).failures + 1 = 3 ∧
      (full.auths.get 0).op ≠ some .check ∧ (full.auths.get 0).state = .opened :=
  ⟨full_authorities, by decide +kernel, by decide +kernel, by decide +kernel, by decide +kernel⟩

theorem witness_LineResetKeepsBarsAndCounters_at_4 :
    let s : State := { full with
      auths := (full.auths.set 3 ⟨.checking, some 7, none, some .check, 4⟩).set 1 ⟨.barred, none, none, none, 5⟩ }
    s.AuthoritiesSettled ∧ (s.auths.get 3).op = some .check ∧ (s.auths.get 3).failures + 1 = 5 ∧
      (s.auths.get 1).op ≠ some .check ∧ (s.auths.get 1).state = .barred :=
  ⟨authorities_of_checks (by decide +kernel) (by decide +kernel) rfl (by decide +kernel), by decide +kernel,
    by decide +kernel, by decide +kernel, by decide +kernel⟩

theorem witness_ResetRequestResetsTheLink :
    full.inReset = false ∧ (full.ranges.get 3).definition = some ⟨200000, 100000, 1, false, false⟩ ∧ (3 : RangeNo) ≠ 0 ∧
      (full.ranges.get 16).definition = none ∧ full.prov = some ⟨1000000, .b512, 0, false, false⟩ := by decide +kernel

/-- Authorities 0 to 3 in turn: NOT-ENROLLED, OPEN, and CHECKING with a check at counter 3 and at counter 4; then a creation. -/
theorem witness_ResetRequestResetsTheLink_authorities :
    let s (r : Authority) : State := { full with
      auths := ((full.auths.set 0 (Authority.initial 4)).set 2 ⟨.checking, some 7, none, some .check, 3⟩).set 3 r }
    let last : Authority := ⟨.checking, some 7, none, some .check, 4⟩
    let create : Authority := ⟨.checking, none, none, some .create, 4⟩
    (s last).inReset = false ∧ ((s last).auths.get 0).state = .notEnrolled ∧ ((s last).auths.get 1).state = .opened ∧
      ((s last).auths.get 2).state = .checking ∧ ((s last).auths.get 2).op = some .check ∧
      ((s last).auths.get 2).failures < 4 ∧ ((s last).auths.get 3).state = .checking ∧
      ((s last).auths.get 3).op = some .check ∧ 4 ≤ ((s last).auths.get 3).failures ∧
      ((s create).auths.get 3).state = .checking ∧ ((s create).auths.get 3).op = some .create := by decide +kernel

/-- Buffer 0 is IN-LANE, the frame in buffer 2 is being sent, and the LANE-FAULT frame in buffer 3 waits. -/
theorem witness_ResetRequestResetsTheLink_buffers :
    let s : State := { full with
      order := [.jobSector 6 0 .ok (some (.job 2)) (some 0), .jobSector 6 1 .laneFault (some (.job 3)) none]
      sending := some []
      jobPool := (full.jobPool.set 2 (some ⟨.job 0 6 0, .finished, payload⟩)).set 3 (some ⟨.job 0 6 1, .finished, payload⟩) }
    let kept := fun b => ∀ f ∈ s.waitingFrames, f.buffer ≠ some b
    s.inReset = false ∧ s.buffer (.job 0) = some ⟨.job 0 6 0, .inLane, []⟩ ∧ kept (.job 0) ∧
      s.buffer (.job 2) = some ⟨.job 0 6 0, .finished, payload⟩ ∧ kept (.job 2) ∧
      (∃ f ∈ s.begun, f.buffer = some (.job 2)) ∧ (∀ b ∈ s.buffer (.job 3), b.stage ≠ .inLane) ∧
      ∀ f ∈ s.begun, f.buffer ≠ some (.job 3) := by decide +kernel

theorem witness_FramesAreHandledAfterTheWake :
    (Instr.setInterval 1 3 4).isFrame ∧ (Instr.setInterval 1 3 4).wellFormed = true ∧ dozing.inReset = false ∧
      dozing.power ≠ .active := ⟨.inl rfl, by decide, rfl, by decide⟩

theorem witness_UntakenRequestsOnlyReply :
    let c := Instr.setInterval 1 4 2
    c.request = some .setInterval ∧ c.requestNumber = some 1 ∧ c.bodyLength = some 4 ∧ 4 ≠ Request.setInterval.bodyLength ∧
      base.inReset = false := by decide +kernel

theorem witness_UntakenRequestsOnlyReply_unknown : (∀ r : Request, r.code ≠ 0x77) ∧ base.inReset = false :=
  ⟨by intro r; cases r <;> decide, rfl⟩

theorem witness_EnteringDeepRefusesRequests :
    (Instr.queryRange 1 3 3).rightLength .queryRange 1 ∧ Request.queryRange ≠ .reset ∧ entering.inReset = false ∧
      entering.deepPending.isSome = true := ⟨⟨rfl, rfl, rfl⟩, by decide, rfl, rfl⟩

theorem witness_UnprovisionedRequestsAreRefused :
    (Instr.openJob 1 12 0 0 0 1).rightLength .openJob 1 ∧ Request.openJob.needsProvisioning = true ∧
      unprovisioned.takesRequests ∧ unprovisioned.prov = none := ⟨⟨rfl, rfl, rfl⟩, rfl, ⟨rfl, rfl⟩, rfl⟩

theorem witness_NumbersAreTested :
    base.takesRequests ∧ 3 < (4 : Byte).toNat ∧ 19 < (20 : Byte).toNat ∧ 31 < (32 : Byte).toNat ∧ base.prov ≠ none :=
  ⟨⟨rfl, rfl⟩, by decide⟩

theorem witness_DiscardedFramesRaiseLinkError :
    ([1] : List Byte) ≠ [] ∧ frameFault [1] = some .form ∧ base.inReset = false := ⟨by decide, by decide +kernel, rfl⟩

theorem witness_ReceivingInvertsSending :
    let c := Instr.setInterval 0x11 3 2
    c.frame = some [0x01, 0x03, 0x00, 0x04, 0x11, 0x02, 0x7C, 0x1A, 0xAB, 0xA3] ∧ c.wellFormed = true ∧
      ∀ r len, c.request = some r → c.bodyLength = some len → len = r.bodyLength :=
  ⟨by decide +kernel, by decide, by intro r len h1 h2; cases h1; cases h2; rfl⟩

theorem witness_SentFramesAreWhole :
    ((OutFrame.jobSector 6 0 .ok (some (.job 0)) (some 0)).bodyBytes payload).length < 65536 := by decide +kernel

/-! ### Witnesses: requests of Power and Hold Control and of the Timebase -/

theorem witness_ProvisionStoresTheRecordOnce_held :
    base.takesRequests ∧ base.prov = some ⟨1000000, .b512, 0, false, false⟩ := ⟨⟨rfl, rfl⟩, rfl⟩

/-- Capacities 0 and 2^48 + 1, a data size of 1024, an owner 4, and a flag 2 spell no record. -/
theorem witness_ProvisionStoresTheRecordOnce_illegal :
    unprovisioned.takesRequests ∧ unprovisioned.prov = none ∧
      (∀ p : Provisioning, ¬ (1 ≤ p.capacity ∧ p.capacity ≤ 2 ^ 48 ∧ (0 : Lba64).toNat = p.capacity)) ∧
      (∀ p : Provisioning, ¬ (1 ≤ p.capacity ∧ p.capacity ≤ 2 ^ 48 ∧ (281474976710657 : Lba64).toNat = p.capacity)) ∧
      (∀ d : DataSize, (1024 : Half).toNat ≠ d.bytes) ∧ (∀ a : AuthNo, (4 : Byte).toNat ≠ a.val) ∧
      ∀ b : Bool, (2 : Byte) ≠ flagByte b := by
  refine ⟨⟨rfl, rfl⟩, rfl, ?_, ?_, ?_, by decide, by decide⟩
  · intro p h; simp at h; omega
  · intro p h; simp at h; omega
  · intro d; cases d <;> decide

theorem witness_ProvisionStoresTheRecordOnce_accepted :
    unprovisioned.takesRequests ∧ unprovisioned.prov = none ∧
      let p : Provisioning := ⟨281474976710656, .b4096, 3, true, false⟩
      1 ≤ p.capacity ∧ p.capacity ≤ 2 ^ 48 ∧ (281474976710656 : Lba64).toNat = p.capacity ∧
        (4096 : Half).toNat = p.dataSize.bytes ∧ (3 : Byte).toNat = p.owner.val ∧ (1 : Byte) = flagByte p.lorRead ∧
        (0 : Byte) = flagByte p.lorWrite := ⟨⟨rfl, rfl⟩, rfl, by decide⟩

theorem witness_StatusAndIntervalReplies :
    base.takesRequests ∧ (0 : Fin 4).val = min (0 : Byte).toNat 3 ∧ (3 : Fin 4).val = min (3 : Byte).toNat 3 ∧
      (3 : Fin 4).val = min (4 : Byte).toNat 3 ∧ (3 : Fin 4).val = min (255 : Byte).toNat 3 := ⟨⟨rfl, rfl⟩, by decide⟩

theorem witness_DozeNeedsAQuietPart :
    entering.inReset = false ∧ entering.deepPending ≠ none ∧ inLane.inReset = false ∧ inLane.deepPending = none ∧
      inLane.jobs.get 6 ≠ none := by decide +kernel

theorem witness_DozeNeedsAQuietPart_quiet :
    let s := sweeping (sweep .paused [])
    s.inReset = false ∧ s.deepPending = none ∧ (∀ t, s.jobs.get t = none) ∧
      (∀ w, s.sweep = some w → w.state = .paused) ∧ s.workQueue = [] ∧ s.running = none ∧
      (∀ k, (s.slots.get k).state ≠ .draining) ∧ ∀ l w, s.lanes.get l ≠ .busy w :=
  ⟨rfl, rfl, by decide +kernel, fun w h => by obtain rfl := Option.some.inj h; rfl, rfl, rfl, by decide +kernel,
    base_busy⟩

theorem witness_DeepEntersAtOnceWithIdleLanes :
    base.takesRequests ∧ base.KeysSettled ∧ base.AuthoritiesSettled ∧ (∀ l w, base.lanes.get l ≠ .busy w) ∧
      base.JobsSettled := ⟨⟨rfl, rfl⟩, base_keys, base_authorities, base_busy, base_jobs⟩

theorem witness_DeepWaitsForBusyLanes :
    inLane.takesRequests ∧ inLane.lanes.get 1 = .busy (work 0) ∧ inLane.JobsSettled :=
  ⟨⟨rfl, rfl⟩, by decide +kernel, inLane_jobs⟩

theorem witness_ReleaseHoldNeedsALane :
    offlineLanes.takesRequests ∧ (∀ l, offlineLanes.lanes.get l = .offline) ∧ base.takesRequests ∧
      (∃ l, base.lanes.get l ≠ .offline) ∧ base.hold = false :=
  ⟨⟨rfl, rfl⟩, by decide +kernel, ⟨rfl, rfl⟩, by decide +kernel, rfl⟩

theorem witness_ReleaseHoldNeedsALane_held :
    let s : State := { base with hold := true, lanes := (Table.replicate 4 Lane.offline).set 3 .idle }
    s.takesRequests ∧ (∃ l, s.lanes.get l ≠ .offline) ∧ s.hold = true := ⟨⟨rfl, rfl⟩, by decide +kernel, rfl⟩

/-! ### Witnesses: profiles and streams -/

/-- A profile above 7, a unit size above D, and CIPHER with 8 bytes of metadata spell no record. -/
theorem witness_SetProfileTestsInOrder_illegal :
    base.takesRequests ∧ base.prov = some ⟨1000000, .b512, 0, false, false⟩ ∧
      (∀ p : ProfileNo, (8 : Byte).toNat ≠ p.val) ∧
      (∀ f : Format, ¬ ((4096 : Half).toNat = f.unitSize.bytes ∧ f.unitSize.bytes ≤ DataSize.b512.bytes)) ∧
      ∀ f : Format, ¬ ((8 : Byte).toNat = f.metaSize.bytes ∧ (1 : Byte) = f.handling.code ∧
        (f.handling = .pass ∨ f.metaSize = .m64)) := by
  refine ⟨⟨rfl, rfl⟩, rfl, by decide, ?_, ?_⟩
  · rintro ⟨u, m, h⟩; cases u <;> simp [DataSize.bytes]
  · rintro ⟨u, m, h⟩; cases m <;> cases h <;> simp [MetaSize.bytes, Handling.code]

theorem witness_SetProfileTestsInOrder :
    base.takesRequests ∧ base.prov = some ⟨1000000, .b512, 0, false, false⟩ ∧
      (let f : Format := ⟨.b512, .m64, .cipher⟩;
        (7 : Byte).toNat = (7 : ProfileNo).val ∧ (512 : Half).toNat = f.unitSize.bytes ∧
        (64 : Byte).toNat = f.metaSize.bytes ∧ (1 : Byte) = f.handling.code ∧
        f.unitSize.bytes ≤ DataSize.b512.bytes ∧ (f.handling = .pass ∨ f.metaSize = .m64)) ∧
      (∀ t, ∀ j ∈ base.jobs.get t, j.profile ≠ 7) ∧ ∀ w ∈ base.sweep, w.profile ≠ 7 :=
  ⟨⟨rfl, rfl⟩, rfl, by decide +kernel⟩

/-- Profile 0 is in use by a job, and by a sweep. -/
theorem witness_SetProfileTestsInOrder_in_use :
    (withJob job).takesRequests ∧ (withJob job).prov = some ⟨1000000, .b512, 0, false, false⟩ ∧
      (∃ t j, (withJob job).jobs.get t = some j ∧ j.profile = 0) ∧ rotating.takesRequests ∧
      rotating.prov = some ⟨1000000, .b512, 0, false, false⟩ ∧ (∀ t, ∀ j ∈ rotating.jobs.get t, j.profile ≠ 0) ∧
      (∃ w, rotating.sweep = some w ∧ w.profile = 0) ∧ (0 : Byte).toNat = (0 : ProfileNo).val ∧
      (512 : Half).toNat = DataSize.b512.bytes ∧ (8 : Byte).toNat = MetaSize.m8.bytes ∧ 0 = Handling.pass.code :=
  ⟨⟨rfl, rfl⟩, rfl, ⟨6, job, by decide +kernel, rfl⟩, ⟨rfl, rfl⟩, rfl, by decide +kernel, ⟨_, rfl, rfl⟩, by decide⟩

theorem witness_SetStreamDecides_refused :
    base.inReset = false ∧ entering.deepPending ≠ none ∧ unprovisioned.deepPending = none ∧ unprovisioned.prov = none ∧
      base.deepPending = none ∧ base.prov ≠ none ∧ 7 < (8 : Byte).toNat := by decide +kernel

theorem witness_SetStreamDecides :
    base.deepPending = none ∧ base.prov ≠ none ∧ (7 : Byte).toNat = (7 : StreamNo).val ∧
      (7 : Byte).toNat = (7 : ProfileNo).val ∧ (3 : ClassNo).val = min (4 : Byte).toNat 3 ∧
      (3 : ClassNo).val = min (3 : Byte).toNat 3 ∧ ∀ t, ∀ j ∈ base.jobs.get t, j.stream ≠ 7 := by decide +kernel

theorem witness_SetStreamDecides_in_use :
    (withJob job).deepPending = none ∧ (withJob job).prov ≠ none ∧ (withJob job).jobs.get 6 = some job ∧
      job.stream = 0 ∧ (0 : Byte).toNat = (0 : StreamNo).val := by decide +kernel

/-! ### Witnesses: ranges -/

theorem base_no_job : ∀ t, base.jobs.get t = none := by decide +kernel

theorem base_definition {r : RangeNo} {d : RangeDef} (h : (base.ranges.get r).definition = some d) :
    r = 3 ∧ d = ⟨200000, 100000, 1, false, false⟩ ∨ r = 5 ∧ d = ⟨600000, 100000, 2, false, false⟩ := by
  have h1 : ∀ q : RangeNo, q ≠ 3 → q ≠ 5 → (base.ranges.get q).definition = none := by decide +kernel
  have h3 : (base.ranges.get 3).definition = some ⟨200000, 100000, 1, false, false⟩ := by decide +kernel
  have h5 : (base.ranges.get 5).definition = some ⟨600000, 100000, 2, false, false⟩ := by decide +kernel
  by_cases e3 : r = 3
  · subst e3; rw [h3] at h; exact .inl ⟨rfl, (Option.some.inj h).symm⟩
  · by_cases e5 : r = 5
    · subst e5; rw [h5] at h; exact .inr ⟨rfl, (Option.some.inj h).symm⟩
    · rw [h1 r e3 e5] at h; cases h

/-- A job is in the table, on another range; range 16 takes the last LBAs of the drive, up to range 5's neighbour. -/
theorem witness_DefineRangeDefinesAfresh_defined :
    let s := withJob job
    let d : RangeDef := ⟨700000, 300000, 3, true, false⟩
    s.takesRequests ∧ s.prov = some ⟨1000000, .b512, 0, false, false⟩ ∧ (16 : Byte).toNat = (16 : RangeNo).val ∧
      (16 : RangeNo) ≠ 0 ∧ (s.auths.get 0).state = .opened ∧ (∀ w ∈ s.sweep, w.range ≠ 16 ∧ w.range ≠ 0) ∧
      (s.ranges.get 16).definition = none ∧ 0 < d.length ∧ (700000 : Lba48).toNat = d.base ∧
      (300000 : Lba48).toNat = d.length ∧ (3 : Byte).toNat = d.owner.val ∧ (1 : Byte) = flagByte d.lorRead ∧
      (0 : Byte) = flagByte d.lorWrite ∧ (s.auths.get d.owner).state ≠ .barred ∧ d.base + d.length ≤ 1000000 ∧
      (∀ q e x, q ≠ 16 → (s.ranges.get q).definition = some e → d.covers x → ¬ e.covers x) ∧
      ∀ t j x, s.jobs.get t = some j → j.state ≠ .ending → d.covers x → ¬ j.covers x := by
  refine ⟨⟨rfl, rfl⟩, rfl, rfl, by decide, by decide +kernel, by decide +kernel, by decide +kernel, by decide, rfl, rfl,
    rfl, rfl, rfl, by decide +kernel, by decide, ?_, ?_⟩
  · intro q e x _ he hd hx
    simp only [RangeDef.covers] at hd hx
    rcases base_definition he with ⟨-, rfl⟩ | ⟨-, rfl⟩ <;> simp only at hx <;> omega
  · intro t j x hj _ hd hx
    have h : ∀ t, ∀ j ∈ (withJob job).jobs.get t, j.first = 250000 ∧ j.count = 4 := by decide +kernel
    have := h t j hj
    simp only [RangeDef.covers, Job.covers] at hd hx
    omega

/-- Removing range 5, and range 6, which is UNDEFINED. -/
theorem witness_DefineRangeDefinesAfresh_undefined :
    base.takesRequests ∧ base.prov = some ⟨1000000, .b512, 0, false, false⟩ ∧ (5 : Byte).toNat = (5 : RangeNo).val ∧
      (6 : Byte).toNat = (6 : RangeNo).val ∧ (base.auths.get 0).state = .opened ∧ base.sweep = none ∧
      (∀ t, base.jobs.get t = none) ∧ (base.ranges.get 5).definition.isSome = true ∧
      (base.ranges.get 6).definition = none := ⟨⟨rfl, rfl⟩, rfl, by decide +kernel⟩

/-- Range 0 and range 17; an owner 4 and a flag 2 with a length of 1. -/
theorem witness_DefineRangeTestsInOrder_fields :
    base.takesRequests ∧ base.prov = some ⟨1000000, .b512, 0, false, false⟩ ∧ (0 : Byte) = 0 ∧ 16 < (17 : Byte).toNat ∧
      (1 : Lba48) ≠ 0 ∧ 3 < (4 : Byte).toNat ∧ 1 < (2 : Byte).toNat := ⟨⟨rfl, rfl⟩, rfl, by decide⟩

def barred : Authority := ⟨.barred, none, none, none, 5⟩

def sealedAt (a : AuthNo) : State := withAuth a ⟨.sealed, some 7, none, none, 0⟩

/-- Authority 0 BARRED, the owner named BARRED, authority 0 SEALED; with a length of 0 no owner is looked at. -/
theorem witness_DefineRangeTestsInOrder_authorities :
    let d : RangeDef := ⟨700000, 300000, 3, true, false⟩
    (withAuth 0 barred).takesRequests ∧ (withAuth 3 barred).takesRequests ∧ (sealedAt 0).takesRequests ∧
      (16 : Byte).toNat = (16 : RangeNo).val ∧ (16 : RangeNo) ≠ 0 ∧ 0 < d.length ∧ (700000 : Lba48).toNat = d.base ∧
      (300000 : Lba48).toNat = d.length ∧ (3 : Byte).toNat = d.owner.val ∧ (1 : Byte) = flagByte d.lorRead ∧
      (0 : Byte) = flagByte d.lorWrite ∧ ((withAuth 0 barred).auths.get 0).state = .barred ∧
      ((withAuth 3 barred).auths.get d.owner).state = .barred ∧ ((sealedAt 0).auths.get 0).state ≠ .barred ∧
      ((sealedAt 0).auths.get d.owner).state ≠ .barred ∧ ((sealedAt 0).auths.get 0).state ≠ .opened :=
  ⟨⟨rfl, rfl⟩, ⟨rfl, rfl⟩, ⟨rfl, rfl⟩, by decide +kernel⟩

/-- An extent one LBA beyond the drive; and one that begins at the last LBA of range 5. -/
theorem witness_DefineRangeTestsInOrder_extents :
    let beyond : RangeDef := ⟨700000, 300001, 3, true, false⟩
    let lapped : RangeDef := ⟨699999, 300001, 3, true, false⟩
    base.takesRequests ∧ (base.auths.get 0).state = .opened ∧ (base.auths.get 3).state ≠ .barred ∧
      1000000 < beyond.base + beyond.length ∧ ¬ 1000000 < lapped.base + lapped.length ∧ (5 : RangeNo) ≠ 16 ∧
      (base.ranges.get 5).definition = some ⟨600000, 100000, 2, false, false⟩ ∧ lapped.covers 699999 ∧
      RangeDef.covers ⟨600000, 100000, 2, false, false⟩ 699999 := by
  refine ⟨⟨rfl, rfl⟩, by decide +kernel, by decide +kernel, by decide, by decide, by decide, by decide +kernel, ?_, ?_⟩ <;>
    exact ⟨by decide, by decide⟩

/-- Moving range 3 to the end of the drive: a job is on its present extent; on the new one; and a sweep names it. -/
theorem witness_DefineRangeTestsInOrder_in_use :
    let d : RangeDef := ⟨700000, 300000, 3, true, false⟩
    let there : Job := { job with first := 999996 }
    (withJob job).takesRequests ∧ ((withJob job).auths.get 0).state = .opened ∧ d.base + d.length ≤ 1000000 ∧
      (∀ q o x, q ≠ 3 → (base.ranges.get q).definition = some o → ¬ (d.covers x ∧ o.covers x)) ∧
      (withJob job).jobs.get 6 = some job ∧ job.state ≠ .ending ∧ job.covers 250003 ∧
      (base.ranges.get 3).definition = some ⟨200000, 100000, 1, false, false⟩ ∧
      RangeDef.covers ⟨200000, 100000, 1, false, false⟩ 250003 ∧ (withJob there).jobs.get 6 = some there ∧
      there.covers 999999 ∧ d.covers 999999 ∧ rotating.takesRequests ∧ (∀ t, rotating.jobs.get t = none) ∧
      ∃ w ∈ rotating.sweep, w.range = 3 := by
  refine ⟨⟨rfl, rfl⟩, by decide +kernel, by decide, ?_, by decide +kernel, by decide, ⟨by decide, by decide⟩,
    by decide +kernel, ⟨by decide, by decide⟩, by decide +kernel, ⟨by decide, by decide⟩, ⟨by decide, by decide⟩, ⟨rfl, rfl⟩,
    base_no_job, by decide +kernel⟩
  rintro q o x hq ho ⟨h1, h2⟩
  simp only [RangeDef.covers] at h1 h2
  rcases base_definition ho with ⟨rfl, rfl⟩ | ⟨-, rfl⟩
  · exact hq rfl
  · simp only at h2
    omega

/-- Slot 12 is READY under authority 1, which owns range 3; 0xFF names no slot. -/
theorem witness_OwnersBindAndUnlock :
    base.takesRequests ∧ base.prov ≠ none ∧ (3 : Byte).toNat = (3 : RangeNo).val ∧ base.rangeOwner 3 = some 1 ∧
      (base.auths.get 1).state = .opened ∧ (12 : Byte) = natByte (12 : SlotNo).val ∧ (∀ t, base.jobs.get t = none) ∧
      base.sweep = none ∧ (base.slots.get 12).state = .ready ∧ (base.slots.get 12).auth = some 1 ∧
      (true || false) = true := ⟨⟨rfl, rfl⟩, by decide +kernel⟩

/-- Range 17, slots 20 and 0xFE, and range 6, which is UNDEFINED. -/
theorem witness_BindKeyTestsInOrder_fields :
    base.takesRequests ∧ base.prov ≠ none ∧ 16 < (17 : Byte).toNat ∧ 19 < (20 : Byte).toNat ∧ (20 : Byte) ≠ 0xFF ∧
      19 < (0xFE : Byte).toNat ∧ (0xFE : Byte) ≠ 0xFF ∧ (6 : Byte).toNat = (6 : RangeNo).val ∧ (6 : RangeNo) ≠ 0 ∧
      (base.ranges.get 6).definition = none := ⟨⟨rfl, rfl⟩, by decide +kernel⟩

/-- One state for each test of BIND-KEY on range 3, the tests before it passed. -/
theorem witness_BindKeyTestsInOrder :
    let draining := withSlot 19 { readySlot 1 with state := .draining, drain := some .retire }
    (withAuth 1 barred).takesRequests ∧ base.prov ≠ none ∧ (3 : Byte).toNat = (3 : RangeNo).val ∧
      base.rangeOwner 3 = some 1 ∧ (19 : Byte) = natByte (19 : SlotNo).val ∧ ((withAuth 1 barred).auths.get 1).state = .barred ∧
      ((sealedAt 1).auths.get 1).state ≠ .barred ∧ ((sealedAt 1).auths.get 1).state ≠ .opened ∧
      (base.auths.get 1).state = .opened ∧
      (∃ t, ∃ j ∈ (withJob job).jobs.get t, j.state = .opened ∧ ∃ g ∈ j.segments, g.range = 3) ∧
      (∀ t, rotating.jobs.get t = none) ∧ (∃ w ∈ rotating.sweep, w.range = 3) ∧ base.sweep = none ∧
      (base.slots.get 19).state = .empty ∧ (draining.slots.get 19).state ≠ .empty ∧ (draining.slots.get 19).state ≠ .ready ∧
      (base.slots.get 15).state = .ready ∧ (base.slots.get 15).auth ≠ some 1 := ⟨⟨rfl, rfl⟩, by decide +kernel⟩

theorem witness_UnlockRangeNeedsItsOwner :
    (withAuth 1 barred).takesRequests ∧ (sealedAt 1).takesRequests ∧ base.prov ≠ none ∧
      (3 : Byte).toNat = (3 : RangeNo).val ∧ (withAuth 1 barred).rangeOwner 3 = some 1 ∧ (sealedAt 1).rangeOwner 3 = some 1 ∧
      (false || true) = true ∧ ((withAuth 1 barred).auths.get 1).state = .barred ∧
      ((sealedAt 1).auths.get 1).state ≠ .barred ∧ ((sealedAt 1).auths.get 1).state ≠ .opened :=
  ⟨⟨rfl, rfl⟩, ⟨rfl, rfl⟩, by decide +kernel⟩

/-- Range 17, a select of 2, no select, and range 6, which is UNDEFINED. -/
theorem witness_LockFieldsAreTested :
    base.takesRequests ∧ base.prov ≠ none ∧ 16 < (17 : Byte).toNat ∧ 1 < (2 : Byte).toNat ∧
      ((0 : Byte) = 0 ∧ (0 : Byte) = 0) ∧ (6 : Byte).toNat = (6 : RangeNo).val ∧ (6 : RangeNo) ≠ 0 ∧
      (base.ranges.get 6).definition = none := ⟨⟨rfl, rfl⟩, by decide +kernel⟩

/-- A read lock on range 3 blocks no job that writes. -/
theorem witness_LockRangeSetsLocks :
    let s := withJob job
    s.takesRequests ∧ s.prov ≠ none ∧ (3 : Byte).toNat = (3 : RangeNo).val ∧ s.rangeUsable 3 = true ∧
      (true || false) = true ∧
      (let x := s.ranges.get 3
        ∀ t, ∀ j ∈ s.jobs.get t, j.state = .opened → j.onRange 3 = true →
          ({ x with readLock := x.readLock || true, writeLock := x.writeLock || false } : RangeRec).blocks j.direction =
            false) ∧
      (∀ t, ∀ j ∈ s.jobs.get t, j.state ≠ .ending) ∧ ∀ k, (s.slots.get k).drained = false :=
  ⟨⟨rfl, rfl⟩, by decide +kernel⟩

/-- Where no job waits and the list is empty, the list is that of the WAITING jobs. -/
theorem listed_of_none {s : State} (h : s.waiting = []) (hj : ∀ t, ∀ j ∈ s.jobs.get t, j.state ≠ .waiting) :
    s.waitingListed :=
  ⟨by simp [h], fun t => ⟨fun m => by simp [h] at m, fun ⟨j, g, e⟩ => absurd e (hj t j g)⟩⟩

/-- A write lock on range 3 ends the job, which has a sector in a lane in one state and none in the other; a lock on range 5,
and a read lock, leave it. -/
theorem witness_LockRangeEndsBlockedJobs :
    let x := base.ranges.get 3
    let locked (rs ws : Bool) : RangeRec := { x with readLock := x.readLock || rs, writeLock := x.writeLock || ws }
    inLane.takesRequests ∧ inLane.JobsSettled ∧ inLane.prov ≠ none ∧ inLane.rangeUsable 3 = true ∧
      inLane.rangeUsable 5 = true ∧ (false || true) = true ∧ inLane.jobs.get 6 = some { job with nextIn := 1 } ∧
      job.state = .opened ∧ job.onRange 3 = true ∧ (locked false true).blocks job.direction = true ∧
      job.onRange 5 = false ∧ (locked true false).blocks job.direction = false ∧ inLane.sectorInLane job.uid ∧
      (withJob job).takesRequests ∧ (withJob job).JobsSettled ∧ (withJob job).jobs.get 6 = some job ∧
      ¬ (withJob job).sectorInLane job.uid ∧ inLane.waitingListed ∧ (withJob job).waitingListed := by
  refine ⟨⟨rfl, rfl⟩, inLane_jobs, by decide +kernel, ?_, ?_, ?_, by decide +kernel, rfl, ?_, ?_, ?_, ?_, inLane_sector,
    ⟨rfl, rfl⟩, withJob_jobs, by decide +kernel, noSector (by decide +kernel), listed_of_none rfl ?_, listed_of_none rfl ?_⟩
  all_goals decide +kernel

theorem witness_QueryRangeReports :
    base.inReset = false ∧ entering.deepPending ≠ none ∧ unprovisioned.deepPending = none ∧ unprovisioned.prov = none ∧
      base.deepPending = none ∧ base.prov ≠ none ∧ 16 < (17 : Byte).toNat ∧ (16 : Byte).toNat = (16 : RangeNo).val ∧
      (0 : Byte).toNat = (0 : RangeNo).val ∧ (base.rangeReport 16).state = .undefined := by decide +kernel

/-! ### Witnesses: authorities -/

def checking : Authority := ⟨.checking, some 7, none, some .check, 0⟩

theorem witness_EnrolDecides :
    base.inReset = false ∧ entering.deepPending ≠ none ∧ base.deepPending = none ∧ 3 < (4 : Byte).toNat ∧
      (3 : Byte).toNat = (3 : AuthNo).val ∧ ((withAuth 3 barred).auths.get 3).state = .barred ∧
      ((withAuth 3 checking).auths.get 3).state = .checking ∧ (base.auths.get 3).state = .opened ∧
      ((withAuth 3 (Authority.initial 4)).auths.get 3).state = .notEnrolled ∧
      ((sealed1 4).auths.get 1).state = .sealed := by decide +kernel

theorem witness_UnlockAuthorityQueuesACheck :
    base.takesRequests ∧ (withAuth 3 barred).takesRequests ∧ (3 : Byte).toNat = (3 : AuthNo).val ∧
      ((withAuth 3 barred).auths.get 3).state = .barred ∧
      ((withAuth 3 (Authority.initial 4)).auths.get 3).state = .notEnrolled ∧
      ((withAuth 3 checking).auths.get 3).state = .checking ∧ (base.auths.get 3).state = .opened :=
  ⟨⟨rfl, rfl⟩, ⟨rfl, rfl⟩, by decide +kernel⟩

/-- A SEALED authority with three operations in the queue, and with four. -/
theorem witness_UnlockAuthorityQueuesACheck_room :
    let s3 : State := { sealed1 4 with workQueue := fullQueue.drop 1 }
    let s4 : State := { sealed1 4 with workQueue := fullQueue }
    s3.takesRequests ∧ (s3.auths.get 1).state = .sealed ∧ s3.workQueue.length < 4 ∧ s4.takesRequests ∧
      (s4.auths.get 1).state = .sealed ∧ 4 ≤ s4.workQueue.length :=
  ⟨⟨rfl, rfl⟩, by decide +kernel, by decide, ⟨rfl, rfl⟩, by decide +kernel, by decide⟩

theorem witness_CreateAuthorityNeedsHealthyNoise :
    let s := withAuth 3 (Authority.initial 4)
    let cold : State := { s with noise := .warming }
    let busy : State := { s with workQueue := fullQueue }
    s.takesRequests ∧ cold.takesRequests ∧ busy.takesRequests ∧ (3 : Byte).toNat = (3 : AuthNo).val ∧
      ((withAuth 3 barred).auths.get 3).state = .barred ∧ ((withAuth 3 checking).auths.get 3).state = .checking ∧ ((sealed1 0).auths.get 1).state = .sealed ∧
      (cold.auths.get 3).state = .notEnrolled ∧ cold.wake.noise ≠ .healthy ∧ (busy.auths.get 3).state = .notEnrolled ∧
      busy.wake.noise = .healthy ∧ 4 ≤ busy.workQueue.length ∧ (s.auths.get 3).state = .notEnrolled ∧
      s.wake.noise = .healthy ∧ s.workQueue.length < 4 :=
  ⟨⟨rfl, rfl⟩, ⟨rfl, rfl⟩, ⟨rfl, rfl⟩, by decide +kernel⟩

/-- Authority 1 in each state, and a full queue. -/
theorem witness_SealAndSetCredential :
    base.takesRequests ∧ (sealedAt 1).takesRequests ∧ (withAuth 1 checking).takesRequests ∧
      (withAuth 1 barred).takesRequests ∧ (withWork fullQueue).takesRequests ∧ (1 : Byte).toNat = (1 : AuthNo).val ∧
      (base.auths.get 1).state = .opened ∧ ((sealedAt 1).auths.get 1).state = .sealed ∧
      ((withAuth 1 (Authority.initial 4)).auths.get 1).state = .notEnrolled ∧
      ((withAuth 1 checking).auths.get 1).state = .checking ∧ ((withAuth 1 barred).auths.get 1).state = .barred ∧
      base.workQueue.length < 4 ∧ ((withWork fullQueue).auths.get 1).state = .opened ∧
      4 ≤ (withWork fullQueue).workQueue.length := by
  refine ⟨⟨rfl, rfl⟩, ⟨rfl, rfl⟩, ⟨rfl, rfl⟩, ⟨rfl, rfl⟩, ⟨rfl, rfl⟩, ?_⟩
  decide +kernel

/-! ### Witnesses: key slots -/

/-- Slot 19 is EMPTY; slot 15 is READY; authority 3 is OPEN, BARRED, SEALED. -/
theorem witness_KeysAreFilledThroughTheQueue :
    let cold : State := { base with noise := .degraded }
    base.takesRequests ∧ cold.takesRequests ∧ (withWork fullQueue).takesRequests ∧ (sealed1 0).takesRequests ∧
      (19 : Byte).toNat = (19 : SlotNo).val ∧ (3 : Byte).toNat = (3 : AuthNo).val ∧
      ((withAuth 3 barred).auths.get 3).state = .barred ∧ ((sealed1 0).auths.get 1).state ≠ .barred ∧
      ((sealed1 0).auths.get 1).state ≠ .opened ∧ (base.auths.get 3).state = .opened ∧
      (base.slots.get 15).state ≠ .empty ∧ (base.slots.get 19).state = .empty ∧ cold.wake.noise ≠ .healthy ∧
      (cold.slots.get 19).state = .empty ∧ 4 ≤ (withWork fullQueue).workQueue.length ∧
      (withWork fullQueue).wake.noise = .healthy ∧ base.workQueue.length < 4 ∧ base.wake.noise = .healthy :=
  ⟨⟨rfl, rfl⟩, ⟨rfl, rfl⟩, ⟨rfl, rfl⟩, ⟨rfl, rfl⟩, by decide +kernel⟩

/-- Slots 19, 9, 15 in turn: EMPTY, named, READY and not named, with lane count 0 and 2, and DRAINING. -/
theorem witness_PurgeWaitsForTheLanes :
    let used := withSlot 15 { readySlot 2 with laneCount := 2 }
    let draining := withSlot 15 { readySlot 2 with state := .draining, laneCount := 2, drain := some .retire }
    base.takesRequests ∧ used.takesRequests ∧ draining.takesRequests ∧ (19 : Byte).toNat = (19 : SlotNo).val ∧
      (base.slots.get 19).state = .empty ∧ (draining.slots.get 15).state ≠ .empty ∧
      (draining.slots.get 15).state ≠ .ready ∧ (base.slots.get 9).state = .ready ∧
      (∃ q, (base.ranges.get q).active = some 9 ∨ (base.ranges.get q).pending = some 9) ∧
      (base.slots.get 15).state = .ready ∧ (base.slots.get 15).laneCount = 0 ∧
      (¬ ∃ q, (base.ranges.get q).active = some 15 ∨ (base.ranges.get q).pending = some 15) ∧
      (used.slots.get 15).state = .ready ∧ 0 < (used.slots.get 15).laneCount :=
  ⟨⟨rfl, rfl⟩, ⟨rfl, rfl⟩, ⟨rfl, rfl⟩, by decide +kernel⟩

/-! ### Witnesses: jobs -/

theorem base_lookup_three {x : Nat} (h : 200000 ≤ x ∧ x < 300000) : base.lookup x = 3 :=
  lookup_three h (by decide +kernel) (by decide +kernel)

theorem base_lookup_zero {x : Nat} (h : 700000 ≤ x) : base.lookup x = 0 := by
  have e : base.lookup x =
      match (List.finRange 17).find? (fun i => (base.ranges.get i).contains x) with | some r => r | none => 0 := rfl
  have hn : (List.finRange 17).find? (fun i => (base.ranges.get i).contains x) = none := by
    rw [List.find?_eq_none]
    intro q _
    cases hd : (base.ranges.get q).definition with
    | none => simp [RangeRec.contains, hd]
    | some d => rcases base_definition hd with ⟨-, rfl⟩ | ⟨-, rfl⟩ <;> simp [RangeRec.contains, hd] <;> omega
  rw [e, hn]

/-- `base` with tag 31 taken and the pointer at it, so that the next job takes tag 0. -/
def pointed : State := { base with jobs := base.jobs.set 31 (some { job with stream := 1 }), nextTag := 31 }

/-- The last 256 LBAs of the drive, in range 0. -/
theorem witness_OpenJobTakesATag_admitted :
    pointed.takesRequests ∧ pointed.prov = some ⟨1000000, .b512, 0, false, false⟩ ∧ (7 : Byte).toNat = (7 : StreamNo).val ∧
      (1 : Byte) = Direction.decipher.code ∧ 1 ≤ (256 : Half).toNat ∧ (256 : Half).toNat ≤ 256 ∧
      (999744 : Lba48).toNat + (256 : Half).toNat ≤ 1000000 ∧ pointed.hold = false ∧
      (∃ l, pointed.lanes.get l ≠ .offline) ∧ 1 < 32 ∧ (0 : Tag).val = (pointed.nextTag.val + 1) % 32 ∧
      pointed.jobs.get 0 = none ∧
      (∀ (m : Nat) (u : Tag), m < 1 → u.val = (pointed.nextTag.val + m) % 32 → (pointed.jobs.get u).isSome = true) ∧
      (∀ x, 999744 ≤ x → x < 999744 + 256 → (pointed.ranges.get (pointed.lookup x)).active.isSome = true ∧
        (pointed.ranges.get (pointed.lookup x)).blocks .decipher = false) ∧
      (pointed.resolve 999744 256).length ≤ 4 ∧ pointed.meetsWindow 999744 256 = false := by
  refine ⟨⟨rfl, rfl⟩, rfl, rfl, rfl, by decide, by decide, by decide, rfl, by decide +kernel, by decide, by decide +kernel,
    by decide +kernel, ?_, ?_, by decide +kernel, rfl⟩
  · intro m u hm hu
    obtain rfl : m = 0 := by omega
    obtain rfl : u = 31 := Fin.ext hu
    decide +kernel
  · intro x h _
    rw [show pointed.lookup x = 0 from base_lookup_zero (by omega)]
    decide +kernel

/-- One LBA inside the window of the sweep. -/
theorem witness_OpenJobTakesATag_waiting :
    rotating.takesRequests ∧ rotating.prov = some ⟨1000000, .b512, 0, false, false⟩ ∧
      (0 : Byte).toNat = (0 : StreamNo).val ∧ (0 : Byte) = Direction.encipher.code ∧ 1 ≤ (1 : Half).toNat ∧
      (1 : Half).toNat ≤ 256 ∧ (240015 : Lba48).toNat + (1 : Half).toNat ≤ 1000000 ∧ rotating.hold = false ∧
      (∃ l, rotating.lanes.get l ≠ .offline) ∧ 0 < 32 ∧ (0 : Tag).val = (rotating.nextTag.val + 0) % 32 ∧
      rotating.jobs.get 0 = none ∧
      (∀ x, 240015 ≤ x → x < 240015 + 1 → (rotating.ranges.get (rotating.lookup x)).active.isSome = true ∧
        (rotating.ranges.get (rotating.lookup x)).blocks .encipher = false) ∧
      (rotating.resolve 240015 1).length ≤ 4 ∧ rotating.meetsWindow 240015 1 = true := by
  refine ⟨⟨rfl, rfl⟩, rfl, rfl, rfl, by decide, by decide, by decide, rfl, by decide +kernel, by decide, by decide +kernel,
    by decide +kernel, ?_, by decide +kernel, by decide +kernel⟩
  intro x h1 h2
  rw [lookup_three ⟨by omega, by omega⟩ (by decide +kernel) (by decide +kernel)]
  decide +kernel

theorem witness_HoldRefusesOpenJob :
    let s : State := { base with hold := true }
    s.takesRequests ∧ s.prov = some ⟨1000000, .b512, 0, false, false⟩ ∧ (7 : Byte).toNat < 8 ∧
      ((1 : Byte) = 0 ∨ (1 : Byte) = 1) ∧ 1 ≤ (256 : Half).toNat ∧ (256 : Half).toNat ≤ 256 ∧
      (999744 : Lba48).toNat + (256 : Half).toNat ≤ 1000000 ∧ s.hold = true := ⟨⟨rfl, rfl⟩, rfl, by decide⟩

theorem witness_OpenJobTestsInOrder_fields :
    base.takesRequests ∧ base.prov = some ⟨1000000, .b512, 0, false, false⟩ ∧ 7 < (8 : Byte).toNat ∧ 1 < (2 : Byte).toNat ∧
      (0 : Half) = 0 ∧ 256 < (257 : Half).toNat := ⟨⟨rfl, rfl⟩, rfl, by decide⟩

/-- One LBA beyond the drive; and, up to its last LBA, with the hold set, with all 32 tags taken, and with no lane. -/
theorem witness_OpenJobTestsInOrder :
    let held : State := { base with hold := true }
    let table : State := { base with jobs := Table.replicate 32 (some job) }
    held.takesRequests ∧ table.takesRequests ∧ offlineLanes.takesRequests ∧
      ¬ (7 < (7 : Byte).toNat ∨ 1 < (1 : Byte).toNat ∨ (256 : Half) = 0 ∨ 256 < (256 : Half).toNat) ∧
      1000000 < (999745 : Lba48).toNat + (256 : Half).toNat ∧ ¬ 1000000 < (999744 : Lba48).toNat + (256 : Half).toNat ∧
      held.hold = true ∧ ¬ table.hold = true ∧ (∀ t, (table.jobs.get t).isSome = true) ∧ ¬ offlineLanes.hold = true ∧
      (¬ ∀ t, (offlineLanes.jobs.get t).isSome = true) ∧ ∀ l, offlineLanes.lanes.get l = .offline :=
  ⟨⟨rfl, rfl⟩, ⟨rfl, rfl⟩, ⟨rfl, rfl⟩, by decide +kernel⟩

/-- Range 5 without a key, or write-locked: of the span from 599,999 the second LBA fails. -/
def atBoundary (r : RangeRec) : State := { base with ranges := base.ranges.set 5 r }

theorem witness_OpenJobTestsInOrder_spans :
    let unkeyed := atBoundary (rangeAt 600000 100000 2 none none)
    let locked := atBoundary { rangeAt 600000 100000 2 (some 14) none with writeLock := true }
    unkeyed.takesRequests ∧ unkeyed.RangesSettled ∧ locked.takesRequests ∧ locked.RangesSettled ∧
      (1 : Byte) ≠ Direction.encipher.code ∧ (0 : Byte) = Direction.encipher.code ∧ unkeyed.hold = false ∧
      (¬ ∀ t, (unkeyed.jobs.get t).isSome = true) ∧ (¬ ∀ l, unkeyed.lanes.get l = .offline) ∧
      (unkeyed.ranges.get (unkeyed.lookup 600000)).active = none ∧
      (∀ y, 599999 ≤ y → y < 600000 → (unkeyed.ranges.get (unkeyed.lookup y)).active ≠ none) ∧
      (∀ x, 599999 ≤ x → x < 600001 → (locked.ranges.get (locked.lookup x)).active ≠ none) ∧
      (locked.ranges.get (locked.lookup 600000)).blocks .encipher = true ∧
      ∀ y, 599999 ≤ y → y < 600000 → (locked.ranges.get (locked.lookup y)).blocks .encipher ≠ true := by
  refine ⟨⟨rfl, rfl⟩, ranges_of_checks ?_, ⟨rfl, rfl⟩, ranges_of_checks ?_, ?_, rfl, rfl, ?_, ?_, ?_, ?_, ?_, ?_, ?_⟩
  case refine_7 => intro y h1 h2; obtain rfl : y = 599999 := by omega
                   decide +kernel
  case refine_8 => intro y h1 h2; rcases (by omega : y = 599999 ∨ y = 600000) with rfl | rfl <;> decide +kernel
  case refine_10 => intro y h1 h2; obtain rfl : y = 599999 := by omega
                    decide +kernel
  all_goals decide +kernel

/-- Two ranges of one LBA each, one LBA apart, make 5 segments of 5 LBAs. -/
theorem witness_OpenJobTestsInOrder_split :
    let s : State := { base with ranges :=
      (base.ranges.set 1 (rangeAt 800001 1 0 (some 1) none)).set 2 (rangeAt 800003 1 0 (some 1) none) }
    s.takesRequests ∧ s.RangesSettled ∧ s.prov = some ⟨1000000, .b512, 0, false, false⟩ ∧
      (∀ x, 800000 ≤ x → x < 800005 → (s.ranges.get (s.lookup x)).active ≠ none ∧
        (s.ranges.get (s.lookup x)).blocks .encipher ≠ true) ∧
      (800000 : Lba48).toNat + (5 : Half).toNat ≤ 1000000 ∧ 4 < (s.resolve 800000 5).length := by
  refine ⟨⟨rfl, rfl⟩, ranges_of_checks (by decide +kernel), rfl, ?_, by decide, by decide +kernel⟩
  intro x h1 h2
  rcases (by omega : x = 800000 ∨ x = 800001 ∨ x = 800002 ∨ x = 800003 ∨ x = 800004) with rfl | rfl | rfl | rfl | rfl <;>
    decide +kernel

def ending : Job := { job with state := .ending, reason := some .locked, nextIn := 1 }

theorem witness_EndJobEndsOrWaits :
    base.takesRequests ∧ base.prov ≠ none ∧ (31 : Byte).toNat = (31 : Tag).val ∧ base.jobs.get 31 = none ∧
      (withJob ending).takesRequests ∧ (withJob ending).jobs.get 6 = some ending ∧ ending.state = .ending ∧
      (withJob job).takesRequests ∧ (withJob job).jobs.get 6 = some job ∧ job.state ≠ .ending ∧
      ¬ (withJob job).sectorInLane job.uid ∧ inLane.takesRequests ∧
      inLane.jobs.get 6 = some { job with nextIn := 1 } ∧ inLane.sectorInLane job.uid :=
  ⟨⟨rfl, rfl⟩, by decide, rfl, by decide +kernel, ⟨rfl, rfl⟩, by decide +kernel, rfl, ⟨rfl, rfl⟩, by decide +kernel,
    by decide, noSector (by decide +kernel), ⟨rfl, rfl⟩, by decide +kernel, inLane_sector⟩

/-! ### Witnesses: the sweep -/

/-- From cursor 40,000, and from the end of the extent, 100,000, at which the sweep is complete; limits 0, 64 and 255. -/
theorem witness_StartSweepRecordsTheSweep :
    let s := withJob job
    s.takesRequests ∧ s.prov ≠ none ∧ (3 : Byte).toNat = (3 : RangeNo).val ∧ (12 : Byte).toNat = (12 : SlotNo).val ∧
      (7 : Byte).toNat = (7 : ProfileNo).val ∧ (3 : ClassNo).val = min (4 : Byte).toNat 3 ∧ s.rangeOwner 3 = some 1 ∧
      (s.auths.get 1).state = .opened ∧ s.sweep = none ∧ (s.ranges.get 3).active = some 9 ∧ (12 : SlotNo) ≠ 9 ∧
      (s.slots.get 12).state = .ready ∧ (s.slots.get 12).auth = some 1 ∧ (40000 : Lba64).toNat ≤ s.extentEnd 3 ∧
      (∀ t, ∀ j ∈ s.jobs.get t, j.state ≠ .ending →
        s.spanMeetsCursors j.first (j.first + j.count) 3 0 (40000 : Lba64).toNat = false) ∧
      max 1 (min (0 : Byte).toNat 64) = 1 ∧ max 1 (min (255 : Byte).toNat 64) = 64 := ⟨⟨rfl, rfl⟩, by decide +kernel⟩

theorem witness_StartSweepRecordsTheSweep_complete :
    base.takesRequests ∧ base.prov ≠ none ∧ (100000 : Lba64).toNat ≤ base.extentEnd 3 ∧
      base.extentEnd 3 ≤ (100000 : Lba64).toNat ∧ (∀ t, base.jobs.get t = none) ∧ base.rangeOwner 3 = some 1 ∧
      (base.auths.get 1).state = .opened ∧ base.sweep = none ∧ (base.ranges.get 3).active = some 9 ∧
      (base.slots.get 12).state = .ready ∧ (base.slots.get 12).auth = some 1 := ⟨⟨rfl, rfl⟩, by decide +kernel⟩

/-- Range 17, slot 20, profile 8, a flag 2, and range 6, which is UNDEFINED. -/
theorem witness_StartSweepTestsInOrder_fields :
    base.takesRequests ∧ base.prov ≠ none ∧ 16 < (17 : Byte).toNat ∧ 19 < (20 : Byte).toNat ∧ 7 < (8 : Byte).toNat ∧
      1 < (2 : Byte).toNat ∧ (6 : Byte).toNat = (6 : RangeNo).val ∧ (6 : RangeNo) ≠ 0 ∧
      (base.ranges.get 6).definition = none := ⟨⟨rfl, rfl⟩, by decide +kernel⟩

/-- One state for each test of START-SWEEP on range 3, the tests before it passed. -/
theorem witness_StartSweepTestsInOrder :
    let bare : State := { base with ranges := base.ranges.set 3 (rangeAt 200000 100000 1 none none) }
    let draining := withSlot 19 { readySlot 1 with state := .draining, drain := some .retire }
    (withAuth 1 barred).takesRequests ∧ (3 : Byte).toNat = (3 : RangeNo).val ∧ (19 : Byte).toNat = (19 : SlotNo).val ∧
      (7 : Byte).toNat < 8 ∧ (1 : Byte) = flagByte true ∧ base.rangeOwner 3 = some 1 ∧
      ((withAuth 1 barred).auths.get 1).state = .barred ∧ ((sealedAt 1).auths.get 1).state ≠ .barred ∧
      ((sealedAt 1).auths.get 1).state ≠ .opened ∧ (rotating.auths.get 1).state = .opened ∧ rotating.sweep ≠ none ∧
      bare.rangeOwner 3 = some 1 ∧ bare.sweep = none ∧ (bare.ranges.get 3).active = none ∧
      (base.ranges.get 3).active = some 9 ∧ (base.slots.get 19).state = .empty ∧ (draining.slots.get 19).state ≠ .empty ∧
      (draining.slots.get 19).state ≠ .ready ∧ (base.slots.get 15).state = .ready ∧ (base.slots.get 15).auth ≠ some 1 ∧
      (base.slots.get 12).state = .ready ∧ (base.slots.get 12).auth = some 1 ∧
      base.extentEnd 3 < (100001 : Lba64).toNat ∧ ¬ base.extentEnd 3 < (100000 : Lba64).toNat := by
  refine ⟨⟨rfl, rfl⟩, ?_⟩
  decide +kernel

/-- A job whose first LBA, 250,000, is the last below the start cursor 50,001. -/
theorem witness_StartSweepTestsInOrder_in_use :
    let s := withJob job
    s.takesRequests ∧ (s.auths.get 1).state = .opened ∧ s.sweep = none ∧ ¬ s.extentEnd 3 < (50001 : Lba64).toNat ∧
      (∃ t, ∃ j ∈ s.jobs.get t, j.state ≠ .ending ∧
        s.spanMeetsCursors j.first (j.first + j.count) 3 0 (50001 : Lba64).toNat = true) ∧
      ∀ t, ∀ j ∈ s.jobs.get t, s.spanMeetsCursors j.first (j.first + j.count) 3 0 (50000 : Lba64).toNat = false :=
  ⟨⟨rfl, rfl⟩, by decide +kernel⟩

theorem witness_CancelSweepCollapses :
    base.takesRequests ∧ base.prov ≠ none ∧ base.sweep = none ∧ (sweeping (sweep .paused [])).takesRequests ∧
      (sweeping (sweep .paused [])).sweep = some (sweep .paused []) ∧ rotating.takesRequests ∧ rotating.prov ≠ none ∧
      (∃ w, rotating.sweep = some w ∧ w.state ≠ .paused) :=
  ⟨⟨rfl, rfl⟩, by decide, rfl, ⟨rfl, rfl⟩, rfl, ⟨rfl, rfl⟩, by decide, _, rfl, by decide⟩

theorem witness_ResumeSweepRuns :
    base.takesRequests ∧ base.prov ≠ none ∧ base.sweep = none ∧ rotating.takesRequests ∧
      (∃ w, rotating.sweep = some w ∧ w.state = .running) ∧ (sweeping (sweep .paused [])).takesRequests ∧
      (sweep .paused []).state ≠ .running ∧ (sweeping (sweep .pausing [pull 7 240000 8])).takesRequests ∧
      (sweep .pausing [pull 7 240000 8]).state ≠ .running :=
  ⟨⟨rfl, rfl⟩, by decide, rfl, ⟨rfl, rfl⟩, ⟨_, rfl, rfl⟩, ⟨rfl, rfl⟩, by decide, ⟨rfl, rfl⟩, by decide⟩

theorem witness_PauseSweepDecides :
    base.inReset = false ∧ entering.deepPending ≠ none ∧ unprovisioned.deepPending = none ∧ unprovisioned.prov = none ∧
      base.deepPending = none ∧ base.prov ≠ none ∧ base.sweep = none ∧ (sweep .pausing []).state ≠ .running ∧
      (∃ w, rotating.sweep = some w ∧ w.state = .running ∧ w.pulls ≠ []) ∧ (sweep .running []).state = .running ∧
      (sweep .running []).pulls = [] ∧ (sweeping (sweep .running [])).sweep = some (sweep .running []) ∧
      (sweeping (sweep .pausing [])).sweep = some (sweep .pausing []) :=
  ⟨rfl, by decide, rfl, rfl, rfl, by decide, rfl, by decide, ⟨_, rfl, rfl, by decide⟩, rfl, rfl, rfl, rfl⟩

/-- Cursors 0 and 40,000. -/
theorem witness_AbandonSweepDecides :
    let fresh : Sweep := { sweep .paused [] with committed := 0, issued := 0, checkpoint := 0 }
    base.inReset = false ∧ entering.deepPending ≠ none ∧ unprovisioned.prov = none ∧ base.deepPending = none ∧
      base.prov ≠ none ∧ base.sweep = none ∧ (∃ w, rotating.sweep = some w ∧ w.state ≠ .paused) ∧
      (sweep .paused []).state = .paused ∧ 0 < (sweep .paused []).committed ∧ (sweeping fresh).sweep = some fresh ∧
      fresh.state = .paused ∧ fresh.committed = 0 ∧ 0 < ({ fresh with committed := 1, issued := 1 } : Sweep).committed :=
  ⟨rfl, by decide, rfl, rfl, by decide, rfl, ⟨_, rfl, by decide⟩, rfl, by decide, rfl, rfl, rfl, by decide⟩

/-- No sweep; pull 9 is in no list; pull 8 is not wholly sent; then wholly sent behind pull 7; then committed behind it. -/
theorem witness_SweepCommitMovesTheCursor :
    let w := sweep .running [pull 7 240000 8, pull 8 240008 7]
    base.takesRequests ∧ base.prov ≠ none ∧ base.sweep = none ∧
      rotating.takesRequests ∧ rotating.prov ≠ none ∧ rotating.sweep = some w ∧ (∀ p ∈ w.pulls, p.number ≠ 9) ∧
      w.pulls = [pull 7 240000 8] ++ pull 8 240008 7 :: [] ∧ (∀ q ∈ [pull 7 240000 8] ++ [], q.number ≠ 8) ∧
      (pull 8 240008 7).number = 8 ∧ (pull 8 240008 7).sent ≠ (pull 8 240008 7).count :=
  ⟨⟨rfl, rfl⟩, by decide, rfl, ⟨rfl, rfl⟩, by decide +kernel⟩

theorem witness_SweepCommitMovesTheCursor_behind :
    let p := pull 8 240008 8
    let w := sweep .running [pull 7 240000 8, p]
    let done := sweep .running [pull 7 240000 8, { p with committed := true }]
    (sweeping w).takesRequests ∧ (sweeping w).prov ≠ none ∧ (sweeping w).sweep = some w ∧
      w.pulls = [pull 7 240000 8] ++ p :: [] ∧ p.sent = p.count ∧ p.committed = false ∧
      (∃ q ∈ [pull 7 240000 8], q.committed = false) ∧ (∀ q ∈ [pull 7 240000 8].head?, q.committed = false) ∧
      (sweeping done).sweep = some done ∧ done.pulls = [pull 7 240000 8] ++ { p with committed := true } :: [] :=
  ⟨⟨rfl, rfl⟩, by decide +kernel, rfl, rfl, rfl, rfl, by decide +kernel, by decide +kernel, rfl, rfl⟩

/-- Pull 7 at the head, pull 8 behind it committed, pull 9 not. -/
theorem witness_SweepCommitMovesTheCursor_prefix :
    let gone := [{ pull 8 240008 8 with committed := true }]
    let rest := [pull 9 240016 0]
    let w := sweep .running (pull 7 240000 8 :: (gone ++ rest))
    (sweeping w).takesRequests ∧ (sweeping w).prov ≠ none ∧ (sweeping w).sweep = some w ∧
      w.pulls = [] ++ pull 7 240000 8 :: (gone ++ rest) ∧ (∀ q ∈ [] ++ (gone ++ rest), q.number ≠ 7) ∧
      (pull 7 240000 8).number = 7 ∧ (pull 7 240000 8).sent = (pull 7 240000 8).count ∧
      (pull 7 240000 8).committed = false ∧ (∀ q ∈ gone, q.committed = true) ∧
      ∀ q ∈ rest.head?, q.committed = false :=
  ⟨⟨rfl, rfl⟩, by decide +kernel, rfl, rfl, by decide +kernel, rfl, rfl, rfl, by decide +kernel, by decide +kernel⟩

/-- A cursor at a multiple of 4,096 of a PAUSING sweep whose list is empty, one below it, and the end of the extent. -/
theorem witness_CommitIsFollowedInOrder :
    let w : Sweep := { sweep .pausing [] with committed := 40960, issued := 40960 }
    let below : Sweep := { sweep .running [] with committed := 40959, issued := 40959 }
    let complete : Sweep := { sweep .running [] with committed := 100000, issued := 100000 }
    (sweeping w).sweep = some w ∧ w.committed < (sweeping w).extentEnd w.range ∧
      w.checkpoint < w.committed - w.committed % 4096 ∧ (w.state = .pausing ∧ w.pulls = []) ∧
      (sweeping below).sweep = some below ∧ below.committed < (sweeping below).extentEnd below.range ∧
      ¬ below.checkpoint < below.committed - below.committed % 4096 ∧ (sweeping complete).sweep = some complete ∧
      (sweeping complete).extentEnd complete.range ≤ complete.committed :=
  ⟨rfl, by decide +kernel, by decide +kernel, ⟨rfl, rfl⟩, rfl, by decide +kernel, by decide +kernel, rfl,
    by decide +kernel⟩

/-- The old slot, 9, is named by range 5 as well; is named by none, with lane count 0; and with lane count 1. -/
theorem witness_FinishPromotesAndRetires :
    let w : Sweep := { sweep .running [] with committed := 100000, issued := 100000 }
    let idle (s : State) : State := { s with
      sweep := none
      ranges := s.ranges.set w.range { s.ranges.get w.range with active := (s.ranges.get w.range).pending, pending := none } }
    let shared : State := { sweeping w with ranges := (sweeping w).ranges.set 5 (rangeAt 600000 100000 2 (some 9) none) }
    let counted : State := { sweeping w with slots := base.slots.set 9 { readySlot 1 with laneCount := 1 } }
    shared.sweep = some w ∧ (∃ q, ((idle shared).ranges.get q).active = some 9 ∨ ((idle shared).ranges.get q).pending = some 9) ∧
      (sweeping w).sweep = some w ∧
      (¬ ∃ q, ((idle (sweeping w)).ranges.get q).active = some 9 ∨ ((idle (sweeping w)).ranges.get q).pending = some 9) ∧
      ((sweeping w).slots.get w.oldSlot).laneCount = 0 ∧ counted.sweep = some w ∧
      (¬ ∃ q, ((idle counted).ranges.get q).active = some 9 ∨ ((idle counted).ranges.get q).pending = some 9) ∧
      0 < (counted.slots.get w.oldSlot).laneCount :=
  ⟨rfl, by decide +kernel, rfl, by decide +kernel, by decide +kernel, rfl, by decide +kernel, by decide +kernel⟩

/-! ### Witnesses: sectors -/

def waitingJob : Job := { job with state := .waiting, segments := [], openTick := none }

/-- Every buffer is taken. -/
def noBuffers : State := { withJob job with
  jobPool := Table.replicate 16 (some ⟨.job 9 9 0, .inLane, []⟩)
  sweepPool := Table.replicate 4 (some ⟨.pull 9 9 0, .inLane, []⟩) }

theorem witness_JobSectorsAreTakenInOrder_refused :
    base.inReset = false ∧ 31 < (32 : Byte).toNat ∧ (31 : Byte).toNat = (31 : Tag).val ∧ base.jobs.get 31 = none ∧
      (∃ j, (withJob ending).jobs.get 6 = some j ∧ j.state = .ending) ∧ (withJob waitingJob).jobs.get 6 = some waitingJob ∧
      waitingJob.state = .waiting ∧ job.state = .opened ∧ (1 : Byte).toNat ≠ job.nextIn ∧
      job.count ≤ (4 : Byte).toNat :=
  ⟨rfl, by decide, rfl, by decide +kernel, ⟨ending, by decide +kernel, rfl⟩, by decide +kernel, rfl, rfl, by decide,
    by decide⟩

/-- The last index of the job; a payload one byte short; and no free buffer. -/
theorem witness_JobSectorsAreTakenInOrder :
    let j : Job := { job with nextIn := 3 }
    let s := withJob j
    s.inReset = false ∧ (6 : Byte).toNat = (6 : Tag).val ∧ s.jobs.get 6 = some j ∧
      s.prov = some ⟨1000000, .b512, 0, false, false⟩ ∧ j.state = .opened ∧ (3 : Byte).toNat = j.nextIn ∧
      j.nextIn < j.count ∧ (payload.drop 1).length ≠ DataSize.b512.bytes + j.format.metaSize.bytes ∧
      payload.length = DataSize.b512.bytes + j.format.metaSize.bytes ∧ j.segmentAt j.nextIn = some ⟨0, 4, 3, 9, .active⟩ ∧
      (∃ i, s.jobPool.get i = none) ∧ noBuffers.inReset = false ∧ noBuffers.jobs.get 6 = some job ∧
      ∀ i, (noBuffers.jobPool.get i).isSome = true := by decide +kernel

/-- Pull 8 at offset 0. -/
def halfway : Sweep := sweep .running [pull 7 240000 8, pull 8 240008 0]

theorem witness_SweepSectorsAreTakenInOrder :
    let s := sweeping halfway
    s.inReset = false ∧ (∀ w ∈ s.sweep, ∀ p ∈ w.pulls, p.number ≠ 9) ∧ s.sweep = some halfway ∧
      s.prov = some ⟨1000000, .b512, 0, false, false⟩ ∧ halfway.pulls = [pull 7 240000 8] ++ pull 8 240008 0 :: [] ∧
      (pull 8 240008 0).number = 8 ∧ (∀ q ∈ [pull 7 240000 8] ++ [], q.number ≠ 8 ∧ q.uid ≠ (pull 8 240008 0).uid) ∧
      (1 : Byte).toNat ≠ (pull 8 240008 0).received ∧ (0 : Byte).toNat = (pull 8 240008 0).received ∧
      (pull 8 240008 0).received < (pull 8 240008 0).count ∧
      payload.length = DataSize.b512.bytes + (s.profiles.get halfway.profile).metaSize.bytes ∧
      (payload.drop 1).length ≠ DataSize.b512.bytes + (s.profiles.get halfway.profile).metaSize.bytes ∧
      (∃ i, s.sweepPool.get i = none) ∧ halfway.oldSlot ≠ halfway.newSlot := by decide +kernel

theorem witness_SweepSectorsAreTakenInOrder_no_buffer :
    let s : State := { sweeping halfway with sweepPool := noBuffers.sweepPool }
    s.inReset = false ∧ s.sweep = some halfway ∧ (∀ i, (s.sweepPool.get i).isSome = true) ∧
      ((pull 8 240008 8).count ≤ (8 : Byte).toNat) := by decide +kernel

/-- Offset 7, all before it handed over; and offset 7 behind offset 6, which is in a lane. -/
theorem witness_UnwrittenSectorsTakeNoBuffer :
    let p := pull 8 240008 7
    let q : Pull := { p with handedOver := 6, sent := 6 }
    rotating.inReset = false ∧ rotating.sweep = some (sweep .running [pull 7 240000 8, p]) ∧
      (∀ x ∈ [pull 7 240000 8] ++ [], x.number ≠ p.number ∧ x.uid ≠ p.uid) ∧ (7 : Byte).toNat = p.received ∧
      p.received < p.count ∧ p.handedOver = p.received ∧ (∀ f ∈ p.reorder, f.offset < p.received) ∧
      (sweeping (sweep .running [pull 7 240000 8, q])).sweep = some (sweep .running [pull 7 240000 8, q]) ∧
      q.handedOver < q.received ∧ (7 : Byte).toNat = q.received ∧ ∀ f ∈ q.reorder, f.offset ≠ q.handedOver := by
  decide +kernel

/-! ### Witnesses: the transmitter -/

theorem witness_TransmitterSendsTheHead :
    let f := replyTo .setInterval 0x11 .ok (.interval 2 0)
    let s : State := { base with order := [f] }
    s.inReset = false ∧ s.order = f :: [] ∧ s.sending = none ∧ ({ s with sending := some [1] } : State).sending = some [1] ∧
      f.owner = none ∧ f.buffer = none := by decide +kernel

/-- The OK sector-out of a job in ENDING, and the LANE-FAULT sector-out of a sweep. -/
theorem witness_TransmitterSendsTheHead_dropped :
    let out := OutFrame.jobSector (natByte (6 : Tag).val) 0 .ok (some (.job 0)) (some ending.uid)
    let fault := OutFrame.sweepSector 8 7 .laneFault (some (.sweep 0)) none
    let s : State := { inLane with jobs := base.jobs.set 6 (some ending), order := [out, fault], sending := some [] }
    s.inReset = false ∧ s.order = out :: [fault] ∧ s.sending = some [] ∧ s.jobs.get 6 = some ending ∧
      ending.state = .ending ∧ ({ s with order := [fault] } : State).order = fault :: [] := by decide +kernel

/-- A LANE-FAULT sector-out, the OK sector-out of an OPEN job, and the sector-outs of a listed pull. -/
theorem witness_TransmitterSendsTheHead_sectors :
    let w := sweep .running [pull 7 240000 8, pull 8 240008 7]
    let fault := OutFrame.jobSector 6 0 .laneFault (some (.job 0)) none
    let out := OutFrame.jobSector (natByte (6 : Tag).val) 0 .ok (some (.job 0)) (some 0)
    let swept := OutFrame.sweepSector 8 7 .ok (some (.sweep 0)) (some (pull 8 240008 7).uid)
    let unwritten := OutFrame.sweepSector 8 7 .unwritten none (some (pull 8 240008 7).uid)
    ({ inLane with order := [fault], sending := some [] } : State).inReset = false ∧
      ({ inLane with order := [out], sending := some [] } : State).order = out :: [] ∧
      inLane.jobs.get 6 = some { job with nextIn := 1 } ∧ job.uid = 0 ∧ job.state = .opened ∧ rotating.sweep = some w ∧
      w.pulls = [pull 7 240000 8] ++ pull 8 240008 7 :: [] ∧
      (∀ q ∈ [pull 7 240000 8] ++ [], q.uid ≠ (pull 8 240008 7).uid) ∧
      ({ rotating with order := [swept, unwritten], sending := some [] } : State).order = swept :: [unwritten] ∧
      (∃ i, (some (.sweep 0) : Option BufRef) = some (.sweep i)) ∧ out.owner = some 0 ∧
      (∀ t, ∀ j ∈ base.jobs.get t, j.uid ≠ 0) ∧ ∀ x ∈ base.sweep, ∀ p ∈ x.pulls, p.uid ≠ 0 := by decide +kernel

/-! ### Witnesses: the lanes -/

/-- Class 1 before an earlier class 2, to lane 1, the lowest that is IDLE. -/
theorem witness_GrantServesClassThenArrival :
    let l := [waitingEntry 0 2 1 2, waitingEntry 0 0 3 1, waitingEntry 0 3 4 1]
    let s : State := { base with
      laneQueue := l, nextArrival := 5, lanes := base.lanes.set 0 .offline
      jobPool := base.jobPool.set 0 (some ⟨.job 0 6 0, .awaiting, payload⟩) }
    s.inReset = false ∧ s.arrivalsRise ∧ s.laneQueue = [waitingEntry 0 2 1 2] ++ waitingEntry 0 0 3 1 :: [waitingEntry 0 3 4 1] ∧
      (∀ x ∈ [waitingEntry 0 2 1 2] ++ [waitingEntry 0 3 4 1], (waitingEntry 0 0 3 1).cls < x.cls ∨
        (waitingEntry 0 0 3 1).cls = x.cls ∧ (waitingEntry 0 0 3 1).arrival < x.arrival) ∧
      s.lanes.get 1 = .idle ∧ (∀ l, l < 1 → s.lanes.get l ≠ .idle) ∧
      s.buffer (waitingEntry 0 0 3 1).buffer = some ⟨.job 0 6 0, .awaiting, payload⟩ :=
  ⟨rfl, ⟨by decide, by decide⟩, rfl, by decide, by decide +kernel, by decide +kernel, by decide +kernel⟩

theorem witness_GrantServesClassThenArrival_idle :
    base.inReset = false ∧ base.arrivalsRise ∧ base.laneQueue = [] ∧ ∀ l, offlineLanes.lanes.get l ≠ .idle :=
  ⟨rfl, ⟨by decide, by decide⟩, rfl, by decide +kernel⟩


/-- The self-check of sector 0 of the job passes on a sound lane, and fails on one that got a bit of block 0 wrong. -/
theorem inLane_sound : inLane.laneCheck (work 0) 0 0 = true := by decide +kernel

theorem inLane_faulty : inLane.laneCheck (work 0) 1 0 = false := by decide +kernel

/-- Index 0 at next-out; index 0 of a job whose next-out is 1, so that it waits; and the last index of a job of one sector. -/
theorem witness_JobCompletionsLeaveInOrder :
    let j : Job := { job with nextIn := 1 }
    let ahead : Job := { j with nextOut := 1, nextIn := 2 }
    let last : Job := { j with count := 1 }
    inLane.inReset = false ∧ inLane.lanes.get 1 = .busy (work 0) ∧ (work 0).owner = .job 0 6 0 ∧
      inLane.laneCheck (work 0) 0 0 = true ∧ inLane.jobs.get 6 = some j ∧ j.uid = 0 ∧ j.state = .opened ∧
      (∀ k, ((inLane.lowerCounts (work 0).counted).slots.get k).drained = false) ∧ inLane.deepPending = none ∧
      (∀ f ∈ j.reorder, f.index ≠ 0) ∧ 0 = j.nextOut ∧ 0 + 1 < j.count ∧ (∀ f ∈ j.reorder, f.index ≠ 0 + 1) ∧
      0 ≠ ahead.nextOut ∧ (∀ f ∈ ahead.reorder, f.index ≠ ahead.nextOut) ∧ 0 = last.nextOut ∧ 0 + 1 = last.count ∧
      last.openTick = some 0 :=
  ⟨rfl, by decide +kernel, rfl, inLane_sound, by decide +kernel, rfl, rfl, by decide +kernel, rfl, by decide, rfl,
    by decide, by decide, by decide, by decide, rfl, rfl, rfl⟩

/-- Index 0 at next-out, with indices 1 and 2 in the reorder set of a job of 4 sectors, and of one of 3. -/
theorem witness_JobCompletionsLeaveInOrder_run :
    let j (count : Nat) : Job := { job with nextIn := 3, count := count, reorder := [⟨2, .job 2⟩, ⟨1, .job 1⟩] }
    let s (count : Nat) : State := { inLane with jobs := base.jobs.set 6 (some (j count)) }
    let run : List JobFinished := [⟨1, .job 1⟩, ⟨2, .job 2⟩]
    (∀ n, (s n).inReset = false ∧ (s n).jobs.get 6 = some (j n) ∧ (j n).state = .opened ∧ (j n).openTick = some 0) ∧
      (∀ n, (s n).lanes.get 1 = .busy (work 0) ∧ (s n).laneCheck (work 0) 0 0 = true ∧ (s n).deepPending = none) ∧
      (∀ k, (((s 4).lowerCounts (work 0).counted).slots.get k).drained = false) ∧
      (∀ k, (((s 3).lowerCounts (work 0).counted).slots.get k).drained = false) ∧ (∀ f ∈ (j 4).reorder, f.index ≠ 0) ∧
      run.map JobFinished.index = List.range' (0 + 1) run.length ∧
      (∀ f ∈ run, f ∈ (j 4).reorder ∧ ∀ g ∈ (j 4).reorder, g.index = f.index → g = f) ∧ 0 + 1 + run.length < 4 ∧
      (∀ f ∈ (j 4).reorder, f.index ≠ 0 + 1 + run.length) ∧ 0 + 1 + run.length = 3 := by
  have h : inLane.lanes.get 1 = .busy (work 0) := by decide +kernel
  refine ⟨fun n => ⟨rfl, Table.get_set_self .., rfl, rfl⟩, fun n => ⟨h, inLane_sound, rfl⟩, ?_⟩
  decide +kernel

/-- Another sector of the job, in lane 2, is there in one state and absent in the other. -/
theorem witness_LaneFaultEndsItsJob :
    let two : State := { inLane with lanes := inLane.lanes.set 2 (.busy (work 1)) }
    inLane.inReset = false ∧ inLane.deepPending = none ∧ inLane.lanes.get 1 = .busy (work 0) ∧
      (work 0).owner = .job 0 6 0 ∧ inLane.laneCheck (work 0) 1 0 = false ∧
      inLane.jobs.get 6 = some { job with nextIn := 1 } ∧ job.uid = 0 ∧ job.state = .opened ∧
      (∀ l x, l ≠ 1 → inLane.lanes.get l = .busy x → x.owner.isJob 0 = false) ∧ two.lanes.get 1 = .busy (work 0) ∧
      two.laneCheck (work 0) 1 0 = false ∧
      (∃ l x, l ≠ (1 : LaneNo) ∧ two.lanes.get l = .busy x ∧ x.owner.isJob 0 = true) ∧
      (work 0).buffer ∉ inLane.givenUp (Owner.isJob 0) (OutFrame.ofJob 0) (job.reorder.map JobFinished.buffer) :=
  ⟨rfl, rfl, by decide +kernel, rfl, inLane_faulty, by decide +kernel, rfl, rfl,
    fun _ _ h e => absurd (inLane_busy e).1 h, by decide +kernel, inLane_faulty,
    ⟨2, work 1, by decide, by decide +kernel, by decide⟩, by decide +kernel⟩

/-- Sector 7 of pull 8 in lane 3. -/
def pullWork (p : Pull) (offset : Nat) : LaneWork :=
  { owner := .pull p.uid p.number offset, buffer := .sweep 0, lba := p.first + offset, task := .recipher 0x1234 0x1234,
    format := ⟨.b512, .m0, .pass⟩, counted := [9, 12], since := 0 }

def pullInLane : State := { rotating with
  lanes := base.lanes.set 3 (.busy (pullWork (pull 8 240008 7) 7))
  sweepPool := base.sweepPool.set 0 (some ⟨.pull 108 8 7, .inLane, payload⟩)
  slots := (base.slots.set 9 { readySlot 1 with laneCount := 1 }).set 12 { readySlot 1 with laneCount := 1 } }

/-- The sweep's check fails on an error in the first pass, and in the second. -/
theorem pullInLane_checks :
    pullInLane.laneCheck (pullWork (pull 8 240008 7) 7) 0 0 = true ∧
      pullInLane.laneCheck (pullWork (pull 8 240008 7) 7) 1 0 = false ∧
      pullInLane.laneCheck (pullWork (pull 8 240008 7) 7) 0 1 = false := by decide +kernel

theorem witness_PullCompletionsAndFaults :
    let p := pull 8 240008 7
    let w := pullWork p 7
    pullInLane.inReset = false ∧ pullInLane.deepPending = none ∧ pullInLane.lanes.get 3 = .busy w ∧
      w.owner = .pull p.uid p.number 7 ∧ pullInLane.sweep = some (sweep .running [pull 7 240000 8, p]) ∧
      (∀ q ∈ [pull 7 240000 8] ++ [], q.uid ≠ p.uid) ∧ (∀ f ∈ p.reorder, f.offset ≠ 7) ∧
      (∀ k, ((pullInLane.lowerCounts w.counted).slots.get k).drained = false) ∧ 7 = p.handedOver ∧
      (∀ f ∈ p.reorder, f.offset ≠ 7 + 1) ∧ 7 ≠ ({ p with handedOver := 6 } : Pull).handedOver ∧
      (∀ f ∈ ({ p with handedOver := 6 } : Pull).reorder, f.offset ≠ 6) ∧ pullInLane.laneCheck w 0 0 = true ∧
      pullInLane.laneCheck w 1 0 = false ∧
      w.buffer ∉ pullInLane.givenUp (Owner.isPulls [pull 7 240000 8, p]) (OutFrame.ofPulls [pull 7 240000 8, p]) [] :=
  ⟨rfl, rfl, by decide +kernel, rfl, rfl, by decide, by decide, by decide +kernel, rfl, by decide, by decide, by decide,
    pullInLane_checks.1, pullInLane_checks.2.1, by decide +kernel⟩

/-- Sector 5 of pull 8 in lane 3, with sector 6 finished and sector 7 unwritten behind it. -/
theorem witness_PullCompletionsAndFaults_run :
    let run : List PullFinished := [⟨6, some (.sweep 1)⟩, ⟨7, none⟩]
    let p : Pull := { pull 8 240008 5 with received := 8, reorder := run.reverse }
    let w := pullWork p 5
    let x := sweep .running [pull 7 240000 8, p]
    let s : State := { pullInLane with sweep := some x, lanes := base.lanes.set 3 (.busy w) }
    s.inReset = false ∧ s.deepPending = none ∧ s.lanes.get 3 = .busy w ∧ w.owner = .pull p.uid p.number 5 ∧
      s.sweep = some x ∧ x.pulls = [pull 7 240000 8] ++ p :: [] ∧ (∀ q ∈ [pull 7 240000 8] ++ [], q.uid ≠ p.uid) ∧
      (∀ f ∈ p.reorder, f.offset ≠ 5) ∧ (∀ k, ((s.lowerCounts w.counted).slots.get k).drained = false) ∧
      s.laneCheck w 0 0 = true ∧ 5 = p.handedOver ∧
      run.map PullFinished.offset = List.range' (5 + 1) run.length ∧
      (∀ f ∈ run, f ∈ p.reorder ∧ ∀ g ∈ p.reorder, g.offset = f.offset → g = f) ∧
      ∀ f ∈ p.reorder, f.offset ≠ 5 + 1 + run.length := by
  refine ⟨rfl, rfl, ?_, rfl, rfl, rfl, ?_⟩ <;> decide +kernel

/-- The job of the sector in lane 1 is in ENDING; and it has left. -/
theorem witness_DroppedCompletionsFreeTheBuffer :
    let s : State := { inLane with jobs := base.jobs.set 6 (some ending) }
    let left : State := { inLane with jobs := base.jobs }
    s.inReset = false ∧ s.lanes.get 1 = .busy (work 0) ∧ (work 0).owner = .job 0 6 0 ∧
      (∀ j ∈ s.jobs.get 6, j.uid = 0 → j.state = .ending) ∧ (∀ uid number offset, (work 0).owner ≠ .pull uid number offset) ∧
      s.deepPending = none ∧ s.laneCheck (work 0) 0 0 = true ∧ s.laneCheck (work 0) 1 0 = false ∧
      left.lanes.get 1 = .busy (work 0) ∧ ∀ j ∈ left.jobs.get 6, j.uid = 0 → j.state = .ending :=
  ⟨rfl, by decide +kernel, rfl, by decide +kernel, by simp [work], rfl, inLane_sound, inLane_faulty, by decide +kernel,
    by decide +kernel⟩

/-- The last sector of a job in ENDING is in lane 1, with another of it in lane 2 in one state; slot 9, of one count, is
DRAINING for PURGE-KEY; and the same while entering DEEP with lane 2 BUSY. -/
theorem witness_DroppedOutputsAreFollowed :
    let s (deep : Option Byte) : State := { inLane with
      jobs := base.jobs.set 6 (some ending), deepPending := deep
      slots := base.slots.set 9 { readySlot 1 with state := .draining, drain := some (.purge 8), laneCount := 1 } }
    let two (deep : Option Byte) : State := { s deep with lanes := inLane.lanes.set 2 (.busy (work 1)) }
    (∀ d, (s d).inReset = false ∧ (two d).inReset = false ∧ (s d).deepPending = d ∧ (two d).deepPending = d) ∧
      (s none).lanes.get 1 = .busy (work 0) ∧ (work 0).owner = .job 0 6 0 ∧
      (∀ j ∈ (s none).jobs.get 6, j.uid = 0 → j.state = .ending) ∧ (s none).jobs.get 6 = some ending ∧ ending.uid = 0 ∧
      (s none).laneCheck (work 0) 0 0 = true ∧ (s none).laneCheck (work 0) 1 0 = false ∧
      (∀ l v, l ≠ 1 → (s none).lanes.get l = .busy v → v.owner.isJob 0 = false) ∧
      (((s none).lowerCounts (work 0).counted).slots.get 9).drained = true ∧
      (two (some 4)).lanes.get 1 = .busy (work 0) ∧ (two (some 4)).lanes.get 2 = .busy (work 1) ∧
      (two none).jobs.get 6 = some ending ∧ (work 1).owner.isJob 0 = true :=
  ⟨fun _ => ⟨rfl, rfl, rfl, rfl⟩, by decide +kernel, rfl, by decide +kernel, by decide +kernel, rfl, inLane_sound,
    inLane_faulty, fun _ _ h e => absurd (inLane_busy e).1 h, by decide +kernel, by decide +kernel, by decide +kernel,
    by decide +kernel, by decide⟩

/-- `full` after a DEEP request: the job is in ENDING with its sector in lane 1, which is BUSY, and the sweep holds no pull. -/
def deepening : State :=
  { full with
    deepPending := some 4
    jobs := base.jobs.set 6 (some { ending with reason := some .power })
    sweep := some (sweep .paused [])
    auths := base.auths
    workQueue := [] }

theorem deepening_job {t : Tag} {j : Job} (h : deepening.jobs.get t = some j) :
    t = 6 ∧ j = { ending with reason := some .power } := by
  have h1 : ∀ u : Tag, u ≠ 6 → deepening.jobs.get u = none := by decide +kernel
  by_cases e : t = 6
  · subst e
    have h2 : deepening.jobs.get 6 = some { ending with reason := some .power } := by decide +kernel
    rw [h2] at h
    exact ⟨rfl, (Option.some.inj h).symm⟩
  · rw [h1 t e] at h
    cases h

theorem deepening_lane : deepening.lanes.get 1 = .busy (work 0) := by decide +kernel

theorem deepening_deep : deepening.DeepSettled where
  power := ⟨by decide +kernel, by decide +kernel, by decide +kernel, by decide +kernel⟩
  jobs :=
    { below := fun t j h => by obtain ⟨rfl, rfl⟩ := deepening_job h; decide +kernel
      apart := fun t u j k h1 h2 _ => (deepening_job h1).1.trans (deepening_job h2).1.symm
      inLanes := fun l w h => by
        obtain ⟨rfl, rfl⟩ := full_busy h
        intro uid tag index e
        obtain ⟨rfl, rfl, rfl⟩ := Owner.job.inj e
        exact ⟨by decide +kernel, fun t j hj _ => (deepening_job hj).1⟩
      inQueue := fun e h => by cases h
      ending := fun t j h _ => by
        obtain ⟨rfl, rfl⟩ := deepening_job h
        exact ⟨1, work 0, 6, 0, deepening_lane, rfl⟩
      owed := fun t j h e => by obtain ⟨rfl, rfl⟩ := deepening_job h; cases e }
  keys := keys_of_checks (by decide +kernel)
  auths := authorities_of_checks (by decide +kernel) (by decide +kernel) rfl (by decide +kernel)
  entering _ :=
    { work := ⟨rfl, rfl⟩
      slots := by decide +kernel
      jobs := fun t j h => by obtain ⟨rfl, rfl⟩ := deepening_job h; rfl
      pulls := fun w h => by obtain rfl := Option.some.inj (h : some _ = some w); rfl }
  busy _ := ⟨1, work 0, deepening_lane⟩
  deep := by intro h; cases h

/-- Lane 1 is the only one BUSY, with the last sector of the job, which leaves. -/
theorem witness_LastCompletionEntersDeep :
    deepening.inReset = false ∧ deepening.DeepSettled ∧ deepening.deepPending = some 4 ∧
      deepening.lanes.get 1 = .busy (work 0) ∧ (∀ l v, l ≠ 1 → deepening.lanes.get l ≠ .busy v) ∧
      deepening.noise = .healthy ∧ deepening.laneCheck (work 0) 0 0 = true ∧ deepening.laneCheck (work 0) 1 0 = false :=
  ⟨rfl, deepening_deep, rfl, deepening_lane, fun _ _ h e => h (full_busy e).1, rfl, inLane_sound, inLane_faulty⟩

/-! ### Witnesses: the wrap unit -/

/-- Each operation at the head of the queue, under an OPEN authority and under one that is SEALED, marked and not. -/
theorem witness_WrapUnitTestsAtTheStart :
    let s (op : WorkOp) (lost : Bool) : State := { withWork [⟨op, 5, lost⟩] with
      auths := (base.auths.set 1 ⟨.sealed, some 7, none, none, 0⟩).set 3 ⟨.checking, none, none, some .create, 4⟩ }
    (∀ op lost, (s op lost).inReset = false ∧ (s op lost).running = none ∧ (s op lost).workQueue = ⟨op, 5, lost⟩ :: []) ∧
      ((s (.unwrap 0 4 77) false).auths.get 0).state = .opened ∧ ((s (.unwrap 1 4 77) false).auths.get 1).state ≠ .opened ∧
      ((s (.generation 0 4) true).auths.get 0).state = .opened ∧ ((s (.generation 1 4) true).auths.get 1).state ≠ .opened ∧
      ((s (.creation 3 6) true).auths.get 3).failures = 4 ∧ ((s (.rewrap 0 6) false).auths.get 0).state = .opened ∧
      ((s (.rewrap 1 6) false).auths.get 1).state ≠ .opened :=
  ⟨fun _ _ => ⟨rfl, rfl, rfl⟩, by decide +kernel⟩

/-- A key blob that this part has made, under its key and under another. -/
theorem witness_SlotsBecomeReady :
    let made : MadeKey := ⟨0, 9, 77, 0x55⟩
    let s (key : AuthKey) : State := { running (.unwrap 0 4 77) (some key) with keyLog := [made] }
    (∀ key, (s key).inReset = false ∧ (s key).running = some ⟨⟨.unwrap 0 4 77, 5, false⟩, some key, 0⟩) ∧
      (s 9).openKeyBlob 0 9 77 = some 0x55 ∧ (s 8).openKeyBlob 0 8 77 = none ∧
      (running (.generation 0 4) (some 9)).inReset = false ∧
      (running (.generation 0 4) (some 9)).running = some ⟨⟨.generation 0 4, 5, false⟩, some 9, 0⟩ :=
  ⟨fun _ => ⟨rfl, rfl⟩, by decide +kernel⟩

/-- A good check, and bad ones at counters 3 and 4. -/
theorem witness_ChecksOpenOrCount :
    let s (cred : Credential) (failures : Nat) : State := { running (.check 1 cred) none with
      auths := base.auths.set 1 ⟨.checking, some 7, none, some .check, failures⟩, verifierLog := [⟨1, 5, 7, 9⟩] }
    (∀ cred n, (s cred n).inReset = false ∧ (s cred n).running = some ⟨⟨.check 1 cred, 5, false⟩, none, 0⟩) ∧
      (s 5 2).checkOutcome 1 5 = some 9 ∧ (s 6 3).checkOutcome 1 6 = none ∧ ((s 6 3).auths.get 1).failures < 4 ∧
      (s 6 4).checkOutcome 1 6 = none ∧ ((s 6 4).auths.get 1).failures = 4 :=
  ⟨fun _ _ => ⟨rfl, rfl⟩, by decide +kernel⟩

theorem witness_VerifiersAreMadeAndOpen :
    (running (.creation 1 5) none).inReset = false ∧
      (running (.creation 1 5) none).running = some ⟨⟨.creation 1 5, 5, false⟩, none, 0⟩ ∧
      (running (.rewrap 1 5) (some 9)).running = some ⟨⟨.rewrap 1 5, 5, false⟩, some 9, 0⟩ := ⟨rfl, rfl, rfl⟩

/-- One blob of each kind made since the model began, and what they open under. -/
theorem witness_BlobsOpenUnderTheirBindingAlone :
    let s : State := { base with verifierLog := [⟨1, 5, 7, 9⟩], keyLog := [⟨0, 9, 77, 0x55⟩] }
    (⟨1, 5, 7, 9⟩ : MadeVerifier) ∈ s.madeVerifiers ∧ s.openVerifier 1 5 7 = some 9 ∧
      (⟨0, 9, 77, 0x55⟩ : MadeKey) ∈ s.madeKeys ∧ s.openKeyBlob 0 9 77 = some 0x55 ∧ s.verifierLog.length < 2 ^ 64 ∧
      s.keyLog.length < 2 ^ 64 :=
  ⟨List.mem_append_left _ (List.mem_singleton.mpr rfl), by decide +kernel,
    List.mem_append_left _ (List.mem_singleton.mpr rfl), by decide +kernel, by decide, by decide⟩

/-! ### Witnesses: time and the noise source -/

/-- The counter at its last value, and one before a carry of bit 14. -/
theorem witness_TicksCountInActive :
    dozing.power ≠ .active ∧ base.inReset = false ∧ base.power = .active ∧
      (({ base with ticks := 0xFFFFFFFF } : State).ticks.toNat + 1) % 2 ^ 32 = 0 ∧
      (({ base with ticks := 0x3FFE } : State).ticks.toNat + 1) % 2 ^ 14 ≠ 0 := ⟨by decide, rfl, rfl, by decide, by decide⟩

/-- The carry of bit 18 with an OPEN job and an uncommitted pull at age 1 and a committed one at age 2; and, in WARMING at
warm-up count 2, the carry of bit 14, which interval index 2 does not select. -/
theorem witness_CarriesAgeShortOfStalls :
    let w := sweep .running [{ pull 2 240000 8 with committed := true, age := 2 }, { pull 3 240008 0 with age := 1 }]
    let s : State := { sweeping w with ticks := 0x3FFFF, jobs := base.jobs.set 6 (some { job with age := 1 }) }
    let warm : State := { base with noise := .warming, warmCount := 2, ticks := 0x3FFF }
    s.inReset = false ∧ s.power = .active ∧ (∀ t, ∀ j ∈ s.jobs.get t, j.state = .opened → j.age < 2) ∧
      (∀ t, ∀ j ∈ s.jobs.get t, j.state ≠ .ending) ∧ s.sweep = some w ∧ (∀ p ∈ w.pulls, p.committed = false → p.age < 2) ∧
      (∀ k, (s.slots.get k).drained = false) ∧ s.noise = .healthy ∧
      (s.ticks.toNat + 1) % 2 ^ (14 + 2 * s.interval.val) = 0 ∧ warm.inReset = false ∧ warm.power = .active ∧
      (∀ t, warm.jobs.get t = none) ∧ warm.sweep = none ∧ (∀ k, (warm.slots.get k).drained = false) ∧
      warm.noise = .warming ∧ warm.warmCount < 3 ∧ (warm.ticks.toNat + 1) % 2 ^ 14 = 0 ∧
      (warm.ticks.toNat + 1) % 2 ^ (14 + 2 * warm.interval.val) ≠ 0 := by
  refine ⟨rfl, rfl, ?_, ?_, rfl, ?_⟩ <;> decide +kernel

/-- The carry of bit 18, interval index 2: a job at age 2 with no sector in a lane and with one, and a pull at age 2 behind
a committed one. -/
theorem witness_CarriesStallJobsAndPulls :
    let old : Job := { job with age := 2 }
    let p : Pull := { pull 3 240008 0 with age := 2 }
    let first : Pull := { pull 2 240000 8 with committed := true, age := 2 }
    let w := sweep .running [first, p]
    let s : State := { withJob old with ticks := 0x3FFFF }
    let t : State := { inLane with ticks := 0x3FFFF, jobs := base.jobs.set 6 (some { old with nextIn := 1 }) }
    let u : State := { sweeping w with ticks := 0x3FFFF }
    s.inReset = false ∧ s.power = .active ∧ (s.ticks.toNat + 1) % 2 ^ (14 + 2 * s.interval.val) = 0 ∧
      s.jobs.get 6 = some old ∧ old.state = .opened ∧ old.age = 2 ∧ ¬ s.sectorInLane old.uid ∧ t.inReset = false ∧
      t.power = .active ∧ (t.ticks.toNat + 1) % 2 ^ (14 + 2 * t.interval.val) = 0 ∧ t.sectorInLane old.uid ∧
      u.inReset = false ∧ u.power = .active ∧ (u.ticks.toNat + 1) % 2 ^ (14 + 2 * u.interval.val) = 0 ∧
      u.sweep = some w ∧ w.pulls = [first] ++ p :: [] ∧ (∀ q ∈ [first], q.committed = true ∨ q.age < 2) ∧
      p.committed = false ∧ 2 ≤ p.age ∧ (∀ t, ∀ j ∈ s.jobs.get t, t = 6) ∧ s.sweep = none ∧
      (∀ t, u.jobs.get t = none) ∧ (∀ k, (u.slots.get k).drained = false) ∧
      Answers (.pullStall .jobsPullsNoise) u (after (.pullStall .jobsPullsNoise) u) ∧
      (after (.pullStall .jobsPullsNoise) u).noise = u.noise :=
  ⟨rfl, rfl, by decide, by decide +kernel, rfl, rfl, noSector (by decide +kernel), rfl, rfl, by decide,
    ⟨1, work 0, 6, 0, by decide +kernel, rfl⟩, rfl, rfl, by decide, rfl, rfl, by decide, rfl, by decide,
    by decide +kernel, rfl, by decide +kernel, by decide +kernel, rfl, by decide +kernel⟩

theorem witness_NoiseHealthFollowsItsCarries :
    let warm : State := { base with noise := .warming, warmCount := 3, ticks := 0x3FFF }
    let ill : State := { base with noise := .degraded, ticks := 0xFFFFF }
    warm.inReset = false ∧ warm.power = .active ∧ (warm.ticks.toNat + 1) % 2 ^ 14 = 0 ∧ warm.noise = .warming ∧
      warm.warmCount = 3 ∧ ill.power = .active ∧ (ill.ticks.toNat + 1) % 2 ^ 20 = 0 ∧ ill.noise = .degraded ∧
      dozing.noise = .stopped ∧ base.noise = .healthy ∧ base.running = none ∧
      (running (.check 1 5) none).noise = .healthy ∧ (∀ r ∈ (running (.check 1 5) none).running, r.item.op.draws = false) ∧
      (running (.creation 1 5) none).noise = .healthy ∧
      (running (.creation 1 5) none).running = some ⟨⟨.creation 1 5, 5, false⟩, none, 0⟩ ∧
      (running (.generation 0 2) (some 9)).noise = .healthy ∧
      (running (.generation 0 2) (some 9)).running = some ⟨⟨.generation 0 2, 5, false⟩, some 9, 0⟩ :=
  ⟨rfl, rfl, by decide, rfl, rfl, rfl, by decide, rfl, rfl, rfl, rfl, rfl, by decide, rfl, rfl, rfl, rfl⟩

/-! ### Witnesses: power events and the parts of events -/

/-- In ACTIVE with work under way, and in DEEP. -/
theorem witness_SupplyWarningEntersDeep :
    full.inReset = false ∧ full.KeysSettled ∧ full.AuthoritiesSettled ∧ full.power ≠ .deep ∧ full.begun = none ∧
      full.JobsSettled := ⟨rfl, full_keys, full_authorities, by decide, rfl, full_jobs⟩

/-- A sector-out is being sent, whose buffer nothing else holds. -/
theorem witness_SupplyWarningEntersDeep_sending :
    let f := OutFrame.jobSector 6 0 .ok (some (.job 3)) (some 0)
    let s : State := { base with order := [f], sending := some [], jobPool := base.jobPool.set 3 (some ⟨.job 0 6 0, .finished, []⟩) }
    s.inReset = false ∧ s.KeysSettled ∧ s.AuthoritiesSettled ∧ s.power ≠ .deep ∧ s.begun = some f ∧
      f.buffer = some (.job 3) ∧ (.job 3) ∉ s.buffersQueued :=
  ⟨rfl, keys_of_checks (by decide +kernel),
    authorities_of_checks (by decide +kernel) (by decide +kernel) rfl (by decide +kernel), by decide, rfl, rfl,
    by decide +kernel⟩

theorem witness_SupplyWarningEntersDeep_in_deep :
    let s : State := { State.reset with power := .deep, noise := .stopped }
    s.inReset = false ∧ s.KeysSettled ∧ s.AuthoritiesSettled ∧ s.power = .deep :=
  ⟨rfl,
    keys_of_checks (by decide +kernel),
    authorities_of_checks (by decide +kernel) (by decide +kernel) rfl (by decide +kernel), rfl⟩

theorem witness_PartsOfEventsComplete_entry :
    entering.inReset = false ∧ entering.deepPending = some 3 ∧ (∀ l w, entering.lanes.get l ≠ .busy w) ∧
      entering.running = none := ⟨rfl, rfl, base_busy, rfl⟩

theorem witness_PartsOfEventsComplete_drain :
    let s (d : DrainCause) := withSlot 19 { readySlot 2 with state := .draining, drain := some d }
    ((s (.purge 3)).slots.get 19).state = .draining ∧ ((s (.purge 3)).slots.get 19).laneCount = 0 ∧
      ((s (.purge 3)).slots.get 19).drain = some (.purge 3) ∧ ((s .retire).slots.get 19).state = .draining ∧
      ((s .retire).slots.get 19).laneCount = 0 ∧ ((s .retire).slots.get 19).drain = some .retire := by decide +kernel

theorem witness_PartsOfEventsComplete_leaving :
    (withJob ending).inReset = false ∧ (withJob ending).jobs.get 6 = some ending ∧ ending.state = .ending ∧
      ¬ (withJob ending).sectorInLane ending.uid :=
  ⟨rfl, by decide +kernel, rfl, noSector (by decide +kernel)⟩

/-- A job WAITING behind the window of the sweep; and, with its range unkeyed, and locked. -/
theorem witness_PartsOfEventsComplete_admission :
    let s (r : RangeRec) : State := { rotating with
      jobs := base.jobs.set 6 (some waitingJob), waiting := [6], ranges := base.ranges.set 3 r }
    let keyed := s (rangeAt 200000 100000 1 (some 9) (some 12))
    let bare := s (rangeAt 200000 100000 1 none none)
    let locked := s { rangeAt 200000 100000 1 (some 9) (some 12) with writeLock := true }
    (∀ r, (s r).inReset = false ∧ (s r).jobs.get 6 = some waitingJob ∧ (s r).hold = false) ∧
      waitingJob.state = .waiting ∧ keyed.meetsWindow waitingJob.first waitingJob.count = false ∧
      (∀ x, waitingJob.covers x → (keyed.ranges.get (keyed.lookup x)).active ≠ none ∧
        (keyed.ranges.get (keyed.lookup x)).blocks waitingJob.direction ≠ true) ∧
      (keyed.resolve waitingJob.first waitingJob.count).length ≤ 4 ∧ bare.RangesSettled ∧
      bare.meetsWindow waitingJob.first waitingJob.count = false ∧ waitingJob.first + waitingJob.count ≤ bare.capacity ∧
      waitingJob.covers 250003 ∧ (bare.ranges.get (bare.lookup 250003)).active = none ∧ locked.RangesSettled ∧
      locked.meetsWindow waitingJob.first waitingJob.count = false ∧
      (∀ x, waitingJob.covers x → (locked.ranges.get (locked.lookup x)).active ≠ none) ∧
      (locked.ranges.get (locked.lookup 250003)).blocks waitingJob.direction = true := by
  have at3 : ∀ {x}, waitingJob.covers x → 200000 ≤ x ∧ x < 300000 := by
    intro x h
    simp only [Job.covers, waitingJob, job] at h
    omega
  have listed : (base.jobs.set 6 (some waitingJob)).get 6 = some waitingJob := by decide +kernel
  refine ⟨fun r => ⟨rfl, listed, rfl⟩, rfl, ?_, ?_, ?_, ranges_of_checks ?_, ?_, ?_, ⟨by decide, by decide⟩, ?_,
    ranges_of_checks ?_, ?_, ?_, ?_⟩
  case refine_2 =>
    intro x h
    rw [lookup_three (at3 h) (by decide +kernel) (by decide +kernel)]
    decide +kernel
  case refine_10 =>
    intro x h
    rw [lookup_three (at3 h) (by decide +kernel) (by decide +kernel)]
    decide +kernel
  all_goals decide +kernel

/-- A job WAITING over two ranges of one LBA each, one LBA apart: 5 segments. -/
theorem witness_PartsOfEventsComplete_split :
    let j : Job := { waitingJob with first := 800000, count := 5 }
    let s : State := { base with
      jobs := base.jobs.set 6 (some j), waiting := [6]
      ranges := (base.ranges.set 1 (rangeAt 800001 1 0 (some 1) none)).set 2 (rangeAt 800003 1 0 (some 1) none) }
    s.inReset = false ∧ s.jobs.get 6 = some j ∧ j.state = .waiting ∧ s.hold = false ∧
      s.meetsWindow j.first j.count = false ∧ s.RangesSettled ∧ j.first + j.count ≤ s.capacity ∧
      (∀ x, j.covers x → (s.ranges.get (s.lookup x)).active ≠ none ∧
        (s.ranges.get (s.lookup x)).blocks j.direction ≠ true) ∧ 4 < (s.resolve j.first j.count).length := by
  refine ⟨rfl, by decide +kernel, rfl, rfl, rfl, ranges_of_checks (by decide +kernel), by decide +kernel, ?_,
    by decide +kernel⟩
  intro x h
  simp only [Job.covers] at h
  rcases (by omega : x = 800000 ∨ x = 800001 ∨ x = 800002 ∨ x = 800003 ∨ x = 800004) with rfl | rfl | rfl | rfl | rfl <;>
    decide +kernel

/-- The hold set; and clear, with one job WAITING at the end of the drive. -/
theorem witness_ReevaluationTakesListOrder :
    let j : Job := { waitingJob with first := 999744, count := 256 }
    let s : State := { base with jobs := base.jobs.set 6 (some j), waiting := [6] }
    ({ s with hold := true } : State).hold = true ∧ s.hold = false ∧ s.RangesSettled ∧ s.jobs.get 6 = some j ∧
      j.state = .waiting ∧ (∀ t, ∀ k ∈ s.jobs.get t, k.first + k.count ≤ s.capacity) ∧ j.first + j.count = s.capacity :=
  ⟨rfl, rfl, ranges_of_checks (by decide +kernel), by decide +kernel⟩

/-- A sweep of the largest limit, with room; and one that is full. -/
theorem witness_IssueStepFormsPulls :
    let w : Sweep := { sweep .running [pull 7 240000 8, pull 8 240008 7] with limit := 64 }
    base.inReset = false ∧ base.sweep = none ∧ (sweeping w).sweep = some w ∧ (sweeping w).RangesSettled ∧ w.limit ≤ 64 ∧
      w.state = .running ∧ (sweeping w).hold = false ∧ (sweeping w).deepPending = none ∧ w.outstanding < w.limit ∧
      w.committed < (sweeping w).extentEnd w.range ∧
      rotating.sweep = some (sweep .running [pull 7 240000 8, pull 8 240008 7]) ∧
      (sweep .running [pull 7 240000 8, pull 8 240008 7]).limit ≤
        (sweep .running [pull 7 240000 8, pull 8 240008 7]).outstanding :=
  ⟨rfl, rfl, rfl, ranges_of_checks (by decide +kernel), by decide, rfl, rfl, rfl, by decide +kernel, by decide +kernel,
    rfl, by decide +kernel⟩

/-- A sweep at its limit, one that may issue at LBA 240,016, and one that an admitted job blocks there. -/
theorem witness_IssueStepPullsFromTheCursor :
    let w := sweep .running [pull 7 240000 8, pull 8 240008 7]
    let free : Sweep := { w with limit := 17 }
    let blocked : State := { sweeping free with jobs := base.jobs.set 6 (some { job with first := 240016 }) }
    rotating.inReset = false ∧ rotating.sweep = some w ∧ w.limit ≤ w.outstanding ∧ (sweeping free).sweep = some free ∧
      free.state = .running ∧ (sweeping free).hold = false ∧ (sweeping free).deepPending = none ∧
      free.outstanding < free.limit ∧ free.committed < (sweeping free).extentEnd free.range ∧
      (sweeping free).nextToIssue free = some 240016 ∧ (sweeping free).inAdmittedSpan 240016 = false ∧
      blocked.sweep = some free ∧ blocked.nextToIssue free = some 240016 ∧ blocked.inAdmittedSpan 240016 = true :=
  ⟨rfl, rfl, by decide +kernel, rfl, rfl, rfl, rfl, by decide +kernel, by decide +kernel, by decide +kernel,
    by decide +kernel, rfl, by decide +kernel, by decide +kernel⟩

/-- The issued cursor is at the end of the extent, with a pull still out. -/
theorem witness_IssueStepPullsFromTheCursor_end :
    let w : Sweep := { sweep .running [pull 7 299992 0] with committed := 99992, issued := 100000 }
    (sweeping w).sweep = some w ∧ w.state = .running ∧ w.outstanding < w.limit ∧
      w.committed < (sweeping w).extentEnd w.range ∧ (sweeping w).nextToIssue w = none := by
  refine ⟨rfl, rfl, ?_⟩
  decide +kernel

theorem witness_PausingSweepsPause :
    let w := sweep .pausing []
    (sweeping w).inReset = false ∧ (sweeping w).deepPending = none ∧ (sweeping w).sweep = some w ∧ w.state = .pausing ∧
      w.pulls = [] ∧ w.committed < (sweeping w).extentEnd w.range := ⟨rfl, rfl, rfl, rfl, rfl, by decide +kernel⟩

/-! ### Witnesses: what no command does, and the invariants -/

/-- A SET-INTERVAL in `full`. -/
theorem witness_OneWriterEach :
    Answers (.setInterval 1 3 3) full (after (.setInterval 1 3 3) full) ∧
      full.prov = some ⟨1000000, .b512, 0, false, false⟩ ∧ ¬ (Instr.setInterval 1 3 3).isHardReset ∧
      (after (.setInterval 1 3 3) full).interval ≠ full.interval ∧ Instr.setInterval 1 3 3 ≠ .unwrapComplete ∧
      Instr.setInterval 1 3 3 ≠ .generationComplete :=
  ⟨rfl, rfl, by simp [Instr.isHardReset], by decide +kernel, by decide, by decide⟩

/-- A PROVISION writes the record that is absent, and a TICK advances the counter. -/
theorem witness_OneWriterEach_record_and_counter :
    Answers (.provision 1 15 1000 512 0 0 0) unprovisioned (after (.provision 1 15 1000 512 0 0 0) unprovisioned) ∧
      unprovisioned.prov = none ∧ (after (.provision 1 15 1000 512 0 0 0) unprovisioned).prov ≠ none ∧
      Answers (.tick .jobsPullsNoise) base (after (.tick .jobsPullsNoise) base) ∧
      ¬ (Instr.tick .jobsPullsNoise).isHardReset ∧ (after (.tick .jobsPullsNoise) base).ticks ≠ base.ticks :=
  ⟨rfl, rfl, by decide +kernel, rfl, by simp [Instr.isHardReset], by decide +kernel⟩

theorem witness_OneWriterEach_profile_and_stream :
    Answers (.setProfile 1 7 2 512 64 1) base (after (.setProfile 1 7 2 512 64 1) base) ∧
      ¬ (Instr.setProfile 1 7 2 512 64 1).isHardReset ∧ (after (.setProfile 1 7 2 512 64 1) base).profiles ≠ base.profiles ∧
      Answers (.setStream 1 5 3 1 9) base (after (.setStream 1 5 3 1 9) base) ∧
      ¬ (Instr.setStream 1 5 3 1 9).isHardReset ∧ (after (.setStream 1 5 3 1 9) base).streams ≠ base.streams :=
  ⟨rfl, by simp [Instr.isHardReset], by decide +kernel, rfl, by simp [Instr.isHardReset], by decide +kernel⟩

/-- A lane fault sets the hold; RELEASE-HOLD clears it; another lane stays OFFLINE. -/
theorem witness_HoldAndLanesFollowFaults :
    let held : State := { base with hold := true, lanes := base.lanes.set 2 .offline }
    Answers (.releaseHold 1 2) held (after (.releaseHold 1 2) held) ∧ ¬ (Instr.releaseHold 1 2).isHardReset ∧
      held.hold = true ∧ (after (.releaseHold 1 2) held).hold = false ∧ held.lanes.get 2 = .offline :=
  ⟨rfl, by simp [Instr.isHardReset], rfl, by decide +kernel, by decide +kernel⟩

theorem witness_HoldAndLanesFollowFaults_set :
    Answers (.laneCompletion 1 1 0) inLane (inLane.complete 1 (work 0) false |>.1.emit
      (inLane.complete 1 (work 0) false).2) ∧ ¬ (Instr.laneCompletion 1 1 0).isHardReset ∧ inLane.hold = false ∧
      (inLane.complete 1 (work 0) false).1.hold = true := by
  refine ⟨?_, by simp [Instr.isHardReset], rfl, by decide +kernel⟩
  have h : inLane.lanes.get 1 = .busy (work 0) := by decide +kernel
  have hc : inLane.laneCheck (work 0) 1#128 0#128 = false := inLane_faulty
  have hr : inLane.inReset = false := rfl
  simp [Answers, exec, execLaneCompletion, onEvent, conclude, h, hr]
  rw [hc]

theorem witness_HoldSuspendsAdmissionAndIssue :
    let s : State := { withJob waitingJob with hold := true, waiting := [6] }
    Answers (.jobAdmission 6) s (after (.jobAdmission 6) s) ∧ s.hold = true ∧ (after (.jobAdmission 6) s).hold = true ∧
      s.jobs.get 6 = some waitingJob ∧ waitingJob.state = .waiting ∧ (after (.jobAdmission 6) s).jobs.get 6 = some waitingJob :=
  ⟨rfl, rfl, by decide +kernel, by decide +kernel, rfl, by decide +kernel⟩

/-- The job's sector-out at the head of the order is being sent while END-JOB withdraws the one behind it. -/
theorem witness_RepliesAndNoticesAreNotWithdrawn :
    let out (i : Byte) := OutFrame.jobSector 6 i .ok (some (.job 1)) (some 0)
    let s : State := { withJob { job with nextIn := 2, nextOut := 2 } with
      order := [out 0, .notice (.started .power), out 1], sending := some [] }
    Answers (.endJob 3 3 6) s (after (.endJob 3 3 6) s) ∧ ¬ (Instr.endJob 3 3 6).isHardReset ∧
      Instr.endJob 3 3 6 ≠ .frameSent ∧ s.sendingHead ∧ s.sending.isSome = true :=
  ⟨rfl, by simp [Instr.isHardReset], by decide, fun _ => by decide, rfl⟩

theorem witness_BarredLastsUntilPowerOn :
    let s : State := { full with auths := full.auths.set 1 barred }
    s.AuthoritiesSettled ∧ Answers .lineReset s (after .lineReset s) ∧ Instr.lineReset ≠ .powerOnReset ∧
      (s.auths.get 1).state = .barred :=
  ⟨authorities_of_checks (by decide +kernel) (by decide +kernel) rfl (by decide +kernel), rfl, by decide, by decide +kernel⟩

theorem witness_EveryRequestGetsOneReply :
    full.DeepSettled ∧ full.inReset = false ∧ Answers (.endJob 3 3 6) full (after (.endJob 3 3 6) full) ∧
      (Instr.endJob 3 3 6).wellFormed = true ∧ ¬ (Instr.endJob 3 3 6).isHardReset ∧ Instr.endJob 3 3 6 ≠ .frameSent ∧
      Instr.endJob 3 3 6 ≠ .resetEnd ∧ (Instr.endJob 3 3 6).requestNumber.isSome = true :=
  ⟨full_deep, rfl, rfl, by decide, by simp [Instr.isHardReset], by decide, by decide, rfl⟩

/-- The step that `full` takes: a LOCK-RANGE that ends the job. -/
theorem full_step : ∃ t, step full = .next t := ⟨after (.lockRange 2 5 3 0 1) { full with pending := [] }, rfl⟩

theorem full_waiting : full.waitingListed := by
  refine ⟨by decide +kernel, fun t => ⟨fun h => (by cases h), fun ⟨j, h, e⟩ => ?_⟩⟩
  obtain ⟨rfl, rfl⟩ := full_job h
  cases e

theorem full_arrivals : full.arrivalsRise := ⟨by decide, by decide⟩

theorem full_sending : full.sendingHead := fun h => (by cases h)

theorem witness_SmallInvariantsAreKept :
    full.heldWithoutLanes ∧ full.sendingHead ∧ full.agesBounded ∧ full.arrivalsRise ∧ full.PowerSettled ∧
      full.waitingListed ∧ ∃ t, step full = .next t := by
  refine ⟨fun h => ?_, full_sending, ⟨fun t j h _ => ?_, fun w h p hp => ?_⟩, full_arrivals, full_power, full_waiting,
    full_step⟩
  · have := h 0
    revert this
    decide +kernel
  · obtain ⟨rfl, rfl⟩ := full_job h
    decide
  · obtain rfl := Option.some.inj (h : some _ = some w)
    obtain rfl := List.mem_singleton.mp hp
    decide

theorem witness_EndingJobsHaveLaneSectors : full.JobsSettled ∧ ∃ t, step full = .next t := ⟨full_jobs, full_step⟩

theorem witness_AuthoritiesStaySettled : full.AuthoritiesSettled ∧ ∃ t, step full = .next t :=
  ⟨full_authorities, full_step⟩

theorem witness_SlotsAndRangesStaySettled : full.KeysSettled ∧ ∃ t, step full = .next t := ⟨full_keys, full_step⟩

theorem witness_SectorsStayInOnePlace :
    full.SegmentsSettled ∧ full.arrivalsRise ∧ full.waitingListed ∧ full.sendingHead ∧ full.SectorsSettled ∧
      ∃ t, step full = .next t :=
  ⟨full_segments, full_arrivals, full_waiting, full_sending, full_sectors, full_step⟩

theorem witness_SweepKeepsClearOfOpenJobs : full.SweepSettled ∧ ∃ t, step full = .next t := ⟨full_sweep, full_step⟩

theorem witness_DeepHoldsNothing : full.DeepSettled ∧ ∃ t, step full = .next t := ⟨full_deep, full_step⟩

theorem witness_SegmentsStayKeyed : full.SegmentsSettled ∧ ∃ t, step full = .next t := ⟨full_segments, full_step⟩

/-! ### Witnesses: ranges and the cipher -/

/-- A span that ends with the drive, and the walk of one that meets range 3, range 0 and range 5. -/
theorem witness_SpanWalkCoversTheSpan :
    full.RangesSettled ∧ 999744 + 256 ≤ full.capacity ∧ 299990 + 300020 ≤ full.capacity :=
  ⟨full_ranges, by decide +kernel, by decide +kernel⟩

theorem witness_CipherUndoesItselfAndIsChecked :
    let d := DataSize.b4096
    let f : Format := ⟨.b512, .m64, .cipher⟩
    f.legal d = true ∧ (List.replicate 4160 (0 : Byte)).length = f.sectorLength d ∧
      (⟨.b4096, .m8, .pass⟩ : Format).legal d = true ∧ 0 < 2 ^ 48 ∧ 2 ^ 48 - 1 < 2 ^ 48 ∧ 7 < unitsPerSector d f := by
  decide +kernel

end Sys2Proof.Tests
end

namespace Sys2Proof

/-! ### Numbers that a one-byte field names -/

theorem numberBelow_eq_some_iff {n : Nat} {b : Byte} {i : Fin n} : numberBelow n b = some i ↔ b.toNat = i.val := by
  unfold numberBelow
  split
  · next h => rw [Option.some.injEq, Fin.ext_iff]
  · next h => exact ⟨fun hn => (by cases hn), fun hi => absurd (hi ▸ i.isLt) h⟩

theorem numberBelow_eq_none_iff {n : Nat} {b : Byte} : numberBelow n b = none ↔ n ≤ b.toNat := by
  simp [numberBelow]

end Sys2Proof

namespace Sys2Proof.Machine

theorem clampToThree_val (b : Byte) : (clampToThree b).val = min b.toNat 3 := by
  unfold clampToThree
  split
  · next h => exact (Nat.min_eq_left (Nat.le_of_lt_succ h)).symm
  · next h => exact (Nat.min_eq_right (by omega)).symm

/-! ### Streams in use -/

theorem State.streamInUse_iff {s : State} {st : StreamNo} :
    s.streamInUse st = true ↔ ∃ t j, s.jobs.get t = some j ∧ j.stream = st := by
  unfold State.streamInUse
  rw [Table.any_iff]
  refine exists_congr fun t => ?_
  cases s.jobs.get t with
  | none => simp
  | some j => simp

@[simp] theorem State.frameEnded_streamInUse (s : State) (st : StreamNo) :
    s.frameEnded.streamInUse st = s.streamInUse st := by
  simp [State.streamInUse]

/-! ### The tests that begin a request -/

section
variable {r : Request} {num : Byte} {s : State}

/-- A request of the right length, received outside a reset, takes its effect on the state after the wake (R4, R5). -/
theorem onRequest_of_length {len : Nat} (hlen : len = r.bodyLength) (hreset : s.inReset = false)
    (f : State → Effect) : onRequest r num len s f = conclude (f s.frameEnded) := by
  simp [onRequest, onFrame, hreset, hlen]

theorem whenProvisioned_enteringDeep (hdeep : s.deepPending ≠ none) (f : Provisioning → Effect) :
    whenProvisioned r num s f = answer s r num .power .none := by
  simp [whenProvisioned, unlessEnteringDeep, State.enteringDeep, Option.isSome_iff_ne_none, hdeep]

theorem whenProvisioned_prov_none (hdeep : s.deepPending = none) (hprov : s.prov = none) (f : Provisioning → Effect) :
    whenProvisioned r num s f = answer s r num .notProvisioned .none := by
  simp [whenProvisioned, unlessEnteringDeep, State.enteringDeep, hdeep, hprov]

theorem whenProvisioned_prov_some (hdeep : s.deepPending = none) {prov : Provisioning} (hprov : s.prov = some prov)
    (f : Provisioning → Effect) : whenProvisioned r num s f = f prov := by
  simp [whenProvisioned, unlessEnteringDeep, State.enteringDeep, hdeep, hprov]

end

/-! ### SET-STREAM (R20, R22, R23) -/

section
variable {num stream profile cls : Byte} {s : State}

theorem exec_setStream (num : Byte) (len : Nat) (stream profile cls : Byte) (s : State) :
    exec (.setStream num len stream profile cls) s = execSetStream num len stream profile cls s := rfl

theorem exec_setStream_enteringDeep (hreset : s.inReset = false) (hdeep : s.deepPending ≠ none) :
    exec (.setStream num 5 stream profile cls) s = conclude (answer s.frameEnded .setStream num .power .none) := by
  rw [exec_setStream, execSetStream, onRequest_of_length (len := 5) rfl hreset,
    whenProvisioned_enteringDeep (by simpa using hdeep)]

theorem exec_setStream_notProvisioned (hreset : s.inReset = false) (hdeep : s.deepPending = none)
    (hprov : s.prov = none) :
    exec (.setStream num 5 stream profile cls) s =
      conclude (answer s.frameEnded .setStream num .notProvisioned .none) := by
  rw [exec_setStream, execSetStream, onRequest_of_length (len := 5) rfl hreset,
    whenProvisioned_prov_none (by simpa using hdeep) (by simpa using hprov)]

/-- The third test: a stream or a profile number that no record has. -/
theorem exec_setStream_badField (hreset : s.inReset = false) (hdeep : s.deepPending = none) (hprov : s.prov ≠ none)
    (hbad : 7 < stream.toNat ∨ 7 < profile.toNat) :
    exec (.setStream num 5 stream profile cls) s = conclude (answer s.frameEnded .setStream num .badField .none) := by
  obtain ⟨prov, hsome⟩ := Option.ne_none_iff_exists'.mp hprov
  rw [exec_setStream, execSetStream, onRequest_of_length (len := 5) rfl hreset,
    whenProvisioned_prov_some (by simpa using hdeep) (by simpa using hsome)]
  rcases hbad with hstream | hprofile
  · rw [numberBelow_eq_none_iff.mpr hstream]
  · rw [numberBelow_eq_none_iff (b := profile).mpr hprofile]
    cases numberBelow 8 stream <;> rfl

/-- Behind the third test only the stream's use decides; profile and sweep are not looked at. -/
theorem exec_setStream_numbers (hreset : s.inReset = false) (hdeep : s.deepPending = none) (hprov : s.prov ≠ none)
    {st : StreamNo} {p : ProfileNo} (hstream : stream.toNat = st.val) (hprofile : profile.toNat = p.val) :
    exec (.setStream num 5 stream profile cls) s = conclude
      (if s.streamInUse st then answer s.frameEnded .setStream num .inUse (.stream (s.streams.get st))
       else answer { s.frameEnded with streams := s.streams.set st ⟨p, clampToThree cls⟩ } .setStream num .ok
        (.stream ⟨p, clampToThree cls⟩)) := by
  obtain ⟨prov, hsome⟩ := Option.ne_none_iff_exists'.mp hprov
  rw [exec_setStream, execSetStream, onRequest_of_length (len := 5) rfl hreset,
    whenProvisioned_prov_some (by simpa using hdeep) (by simpa using hsome), numberBelow_eq_some_iff.mpr hstream,
    numberBelow_eq_some_iff.mpr hprofile]
  simp only [State.frameEnded_streamInUse, State.frameEnded_streams]

end

/-- Settles O17: the four tests in their order, each outcome by its equation of `exec`. -/
theorem setStreamDecides : Obligations.SetStreamDecides := by
  intro num stream profile cls s hreset
  refine ⟨exec_setStream_enteringDeep hreset, exec_setStream_notProvisioned hreset, exec_setStream_badField hreset, ?_⟩
  intro st p k hdeep hprov hstream hprofile hclass
  have hk : clampToThree cls = k := Fin.ext ((clampToThree_val cls).trans hclass.symm)
  have hexec := exec_setStream_numbers (num := num) (cls := cls) hreset hdeep hprov hstream hprofile
  rw [hk] at hexec
  constructor
  · intro hused
    rw [if_pos (State.streamInUse_iff.mpr hused)] at hexec
    exact hexec
  · intro hfree
    have hunused : ¬ s.streamInUse st = true := by
      rw [State.streamInUse_iff]
      rintro ⟨t, j, hjob, hst⟩
      exact hfree t j hjob hst
    rw [if_neg hunused] at hexec
    exact hexec

end Sys2Proof.Machine

namespace Sys2Proof.Machine

/-! ### Tests 1 and 2 of R33, for any request of a provisioned part -/

section
variable {r : Request} {num : Byte} {len : Nat} {s : State}

theorem onRequest_whenProvisioned_enteringDeep (hlen : len = r.bodyLength) (hreset : s.inReset = false)
    (hdeep : s.deepPending ≠ none) (f : State → Provisioning → Effect) :
    onRequest r num len s (fun x => whenProvisioned r num x (f x)) =
      conclude (answer s.frameEnded r num .power .none) := by
  rw [onRequest_of_length hlen hreset, whenProvisioned_enteringDeep (by simpa using hdeep)]

theorem onRequest_whenProvisioned_prov_none (hlen : len = r.bodyLength) (hreset : s.inReset = false)
    (hdeep : s.deepPending = none) (hprov : s.prov = none) (f : State → Provisioning → Effect) :
    onRequest r num len s (fun x => whenProvisioned r num x (f x)) =
      conclude (answer s.frameEnded r num .notProvisioned .none) := by
  rw [onRequest_of_length hlen hreset, whenProvisioned_prov_none (by simpa using hdeep) (by simpa using hprov)]

theorem onRequest_whenProvisioned_prov_some (hlen : len = r.bodyLength) (hreset : s.inReset = false)
    (hdeep : s.deepPending = none) {prov : Provisioning} (hprov : s.prov = some prov)
    (f : State → Provisioning → Effect) :
    onRequest r num len s (fun x => whenProvisioned r num x (f x)) = conclude (f s.frameEnded prov) := by
  rw [onRequest_of_length hlen hreset, whenProvisioned_prov_some (by simpa using hdeep) (by simpa using hprov)]

end

/-! ### The range report (R34) -/

/-- The report reads nothing that the wake or the receiver's bytes touch. -/
@[simp] theorem State.frameEnded_rangeReport (s : State) (r : RangeNo) :
    s.frameEnded.rangeReport r = s.rangeReport r := by
  rw [State.frameEnded, State.wake_eq]
  split <;> rfl

theorem State.rangeReport_state_undefined_iff {s : State} {r : RangeNo} :
    (s.rangeReport r).state = .undefined ↔ r ≠ 0 ∧ (s.ranges.get r).definition = none := by
  by_cases hr : r = 0
  · simp [State.rangeReport, hr]
  · cases hdef : (s.ranges.get r).definition <;> simp [State.rangeReport, hr, hdef]

section
variable {s : State} {r : RangeNo} (hr : r ≠ 0)
include hr

theorem State.rangeOwner_of_ne_zero : s.rangeOwner r = (s.ranges.get r).definition.map RangeDef.owner := if_neg hr

theorem State.rangeReport_base_of_ne_zero :
    (s.rangeReport r).base = (s.ranges.get r).definition.map RangeDef.base := if_neg hr

theorem State.rangeReport_extent_of_ne_zero :
    (s.rangeReport r).extent = (s.ranges.get r).definition.map RangeDef.length := if_neg hr

theorem State.rangeReport_owner_of_ne_zero :
    (s.rangeReport r).owner = (s.ranges.get r).definition.map RangeDef.owner := State.rangeOwner_of_ne_zero hr

theorem State.rangeReport_lorRead_of_ne_zero :
    (s.rangeReport r).lorRead = (s.ranges.get r).definition.map RangeDef.lorRead := if_neg hr

theorem State.rangeReport_lorWrite_of_ne_zero :
    (s.rangeReport r).lorWrite = (s.ranges.get r).definition.map RangeDef.lorWrite := if_neg hr

end

/-! ### QUERY-RANGE (R45) -/

section
variable {num range : Byte} {s : State}

theorem exec_queryRange (num : Byte) (len : Nat) (range : Byte) (s : State) :
    exec (.queryRange num len range) s = execQueryRange num len range s := rfl

theorem exec_queryRange_enteringDeep (hreset : s.inReset = false) (hdeep : s.deepPending ≠ none) :
    exec (.queryRange num 3 range) s = conclude (answer s.frameEnded .queryRange num .power .none) := by
  rw [exec_queryRange, execQueryRange, onRequest_whenProvisioned_enteringDeep (len := 3) rfl hreset hdeep]

theorem exec_queryRange_notProvisioned (hreset : s.inReset = false) (hdeep : s.deepPending = none)
    (hprov : s.prov = none) :
    exec (.queryRange num 3 range) s = conclude (answer s.frameEnded .queryRange num .notProvisioned .none) := by
  rw [exec_queryRange, execQueryRange, onRequest_whenProvisioned_prov_none (len := 3) rfl hreset hdeep hprov]

/-- The third test: a range number above 16. -/
theorem exec_queryRange_badField (hreset : s.inReset = false) (hdeep : s.deepPending = none) (hprov : s.prov ≠ none)
    (hbad : 16 < range.toNat) :
    exec (.queryRange num 3 range) s = conclude (answer s.frameEnded .queryRange num .badField .none) := by
  obtain ⟨prov, hsome⟩ := Option.ne_none_iff_exists'.mp hprov
  rw [exec_queryRange, execQueryRange, onRequest_whenProvisioned_prov_some (len := 3) rfl hreset hdeep hsome,
    numberBelow_eq_none_iff.mpr hbad]

/-- Behind the third test nothing is refused: the record's state, its owner and its locks are not looked at. -/
theorem exec_queryRange_ok (hreset : s.inReset = false) (hdeep : s.deepPending = none) (hprov : s.prov ≠ none)
    {r : RangeNo} (hrange : range.toNat = r.val) :
    exec (.queryRange num 3 range) s =
      conclude (answer s.frameEnded .queryRange num .ok (.range (s.rangeReport r))) := by
  obtain ⟨prov, hsome⟩ := Option.ne_none_iff_exists'.mp hprov
  rw [exec_queryRange, execQueryRange, onRequest_whenProvisioned_prov_some (len := 3) rfl hreset hdeep hsome,
    numberBelow_eq_some_iff.mpr hrange]
  simp only [answerRange, State.frameEnded_rangeReport]

end

/-- Settles O21: the three tests and the report, each outcome by its equation of `exec`; an UNDEFINED range is not range 0
and has no definition, from which each absent field of its report would come. -/
theorem queryRangeReports : Obligations.QueryRangeReports := by
  intro num range s hreset
  refine ⟨exec_queryRange_enteringDeep hreset, exec_queryRange_notProvisioned hreset, exec_queryRange_badField hreset, ?_⟩
  intro r hdeep hprov hrange
  refine ⟨exec_queryRange_ok hreset hdeep hprov hrange, fun hundefined => ?_⟩
  obtain ⟨hr, hdef⟩ := State.rangeReport_state_undefined_iff.mp hundefined
  rw [State.rangeReport_base_of_ne_zero hr, State.rangeReport_extent_of_ne_zero hr, State.rangeReport_owner_of_ne_zero hr,
    State.rangeReport_lorRead_of_ne_zero hr, State.rangeReport_lorWrite_of_ne_zero hr, hdef]
  simp only [Option.map_none, and_self]

end Sys2Proof.Machine

namespace Sys2Proof.Machine

/-! ### The tests that begin an authority request (R51) -/

section
variable {q : Request} {num auth : Byte} {s : State} {a : AuthNo}

theorem whenAuthority_enteringDeep (hdeep : s.deepPending ≠ none) (f : AuthNo → Effect) :
    whenAuthority q num auth s f = answer s q num .power .none := by
  simp [whenAuthority, unlessEnteringDeep, State.enteringDeep, Option.isSome_iff_ne_none, hdeep]

theorem whenAuthority_number_above (hdeep : s.deepPending = none) (hbad : 3 < auth.toNat) (f : AuthNo → Effect) :
    whenAuthority q num auth s f = answer s q num .badField .none := by
  simp [whenAuthority, unlessEnteringDeep, State.enteringDeep, hdeep, numberBelow_eq_none_iff.mpr hbad]

theorem whenAuthority_barred (hdeep : s.deepPending = none) (hauth : auth.toNat = a.val)
    (hstate : (s.auths.get a).state = .barred) (f : AuthNo → Effect) :
    whenAuthority q num auth s f = answerAuthority s q num .barred a := by
  simp [whenAuthority, unlessEnteringDeep, State.enteringDeep, hdeep, numberBelow_eq_some_iff.mpr hauth, hstate]

theorem whenAuthority_not_barred (hdeep : s.deepPending = none) (hauth : auth.toNat = a.val)
    (hstate : (s.auths.get a).state ≠ .barred) (f : AuthNo → Effect) :
    whenAuthority q num auth s f = f a := by
  simp [whenAuthority, unlessEnteringDeep, State.enteringDeep, hdeep, numberBelow_eq_some_iff.mpr hauth, hstate]

/-! ### The authority report (R51) -/

/-- The report reads nothing that the wake or the receiver's bytes touch. -/
@[simp] theorem State.frameEnded_authorityReport (s : State) (a : AuthNo) :
    s.frameEnded.authorityReport a = s.authorityReport a := by
  simp only [State.authorityReport, State.frameEnded_auths]

theorem answerAuthority_frameEnded (s : State) (q : Request) (num : Byte) (code : ReplyCode) (a : AuthNo) :
    answerAuthority s.frameEnded q num code a =
      answer s.frameEnded q num code (.authority (s.authorityReport a) none) := by
  rw [answerAuthority, State.frameEnded_authorityReport]

/-! ### The tests of R51 on a received request, its frame ended -/

section
variable {len : Nat} (hlen : len = q.bodyLength) (hreset : s.inReset = false)
include hlen hreset

theorem onRequest_whenAuthority_enteringDeep (hdeep : s.deepPending ≠ none) (f : State → AuthNo → Effect) :
    onRequest q num len s (fun x => whenAuthority q num auth x (f x)) =
      conclude (answer s.frameEnded q num .power .none) := by
  rw [onRequest_of_length hlen hreset, whenAuthority_enteringDeep (by simpa using hdeep)]

theorem onRequest_whenAuthority_number_above (hdeep : s.deepPending = none) (hbad : 3 < auth.toNat)
    (f : State → AuthNo → Effect) :
    onRequest q num len s (fun x => whenAuthority q num auth x (f x)) =
      conclude (answer s.frameEnded q num .badField .none) := by
  rw [onRequest_of_length hlen hreset, whenAuthority_number_above (by simpa using hdeep) hbad]

theorem onRequest_whenAuthority_barred (hdeep : s.deepPending = none) (hauth : auth.toNat = a.val)
    (hstate : (s.auths.get a).state = .barred) (f : State → AuthNo → Effect) :
    onRequest q num len s (fun x => whenAuthority q num auth x (f x)) =
      conclude (answer s.frameEnded q num .barred (.authority (s.authorityReport a) none)) := by
  rw [onRequest_of_length hlen hreset, whenAuthority_barred (by simpa using hdeep) hauth (by simpa using hstate),
    answerAuthority_frameEnded]

theorem onRequest_whenAuthority_not_barred (hdeep : s.deepPending = none) (hauth : auth.toNat = a.val)
    (hstate : (s.auths.get a).state ≠ .barred) (f : State → AuthNo → Effect) :
    onRequest q num len s (fun x => whenAuthority q num auth x (f x)) = conclude (f s.frameEnded a) := by
  rw [onRequest_of_length hlen hreset, whenAuthority_not_barred (by simpa using hdeep) hauth (by simpa using hstate)]

end

end

/-! ### ENROL (R53) -/

section
variable {num auth : Byte} {blob : VerifierBlob} {s : State} {a : AuthNo}

theorem exec_enrol (num : Byte) (len : Nat) (auth : Byte) (blob : VerifierBlob) (s : State) :
    exec (.enrol num len auth blob) s = execEnrol num len auth blob s := rfl

theorem exec_enrol_enteringDeep (hreset : s.inReset = false) (hdeep : s.deepPending ≠ none) :
    exec (.enrol num 51 auth blob) s = conclude (answer s.frameEnded .enrol num .power .none) := by
  rw [exec_enrol, execEnrol, onRequest_whenAuthority_enteringDeep (len := 51) rfl hreset hdeep]

/-- The second test: an authority number above 3. -/
theorem exec_enrol_badField (hreset : s.inReset = false) (hdeep : s.deepPending = none) (hbad : 3 < auth.toNat) :
    exec (.enrol num 51 auth blob) s = conclude (answer s.frameEnded .enrol num .badField .none) := by
  rw [exec_enrol, execEnrol, onRequest_whenAuthority_number_above (len := 51) rfl hreset hdeep hbad]

section
variable (hreset : s.inReset = false) (hdeep : s.deepPending = none) (hauth : auth.toNat = a.val)
include hreset hdeep hauth

theorem exec_enrol_barred (hstate : (s.auths.get a).state = .barred) :
    exec (.enrol num 51 auth blob) s =
      conclude (answer s.frameEnded .enrol num .barred (.authority (s.authorityReport a) none)) := by
  rw [exec_enrol, execEnrol, onRequest_whenAuthority_barred (len := 51) rfl hreset hdeep hauth hstate]

/-- ENROL's own test: an authority in CHECKING or OPEN. -/
theorem exec_enrol_busy (hstate : (s.auths.get a).state = .checking ∨ (s.auths.get a).state = .opened) :
    exec (.enrol num 51 auth blob) s =
      conclude (answer s.frameEnded .enrol num .busy (.authority (s.authorityReport a) none)) := by
  have hbarred : (s.auths.get a).state ≠ .barred := by
    rcases hstate with h | h <;> simp [h]
  rw [exec_enrol, execEnrol, onRequest_whenAuthority_not_barred (len := 51) rfl hreset hdeep hauth hbarred,
    ← answerAuthority_frameEnded]
  simp only [State.frameEnded_auths]
  rcases hstate with h | h <;> rw [h]

/-- Accepted: state and blob are written; operation, key and failure counter stay. -/
theorem exec_enrol_ok (hstate : (s.auths.get a).state = .notEnrolled ∨ (s.auths.get a).state = .sealed) :
    exec (.enrol num 51 auth blob) s = conclude (answerAuthority
      { s.frameEnded with auths := s.auths.set a { s.auths.get a with state := .sealed, blob := some blob } }
      .enrol num .ok a) := by
  have hbarred : (s.auths.get a).state ≠ .barred := by
    rcases hstate with h | h <;> simp [h]
  rw [exec_enrol, execEnrol, onRequest_whenAuthority_not_barred (len := 51) rfl hreset hdeep hauth hbarred]
  simp only [State.frameEnded_auths, Table.update]
  rcases hstate with h | h <;> rw [h]

end

end

/-- Settles O22: the three tests of R51 and ENROL's own in their order, each outcome by its equation of `exec`. -/
theorem enrolDecides : Obligations.EnrolDecides := by
  intro num auth blob s hreset
  refine ⟨exec_enrol_enteringDeep hreset, exec_enrol_badField hreset, ?_⟩
  intro a hdeep hauth
  exact ⟨exec_enrol_barred hreset hdeep hauth, exec_enrol_busy hreset hdeep hauth, exec_enrol_ok hreset hdeep hauth⟩

end Sys2Proof.Machine

namespace Sys2Proof.Machine

/-! ### The sweep report (R130) -/

/-- The report reads nothing that the wake or the receiver's bytes touch. -/
@[simp] theorem State.frameEnded_sweepReport (s : State) : s.frameEnded.sweepReport = s.sweepReport := by
  simp only [State.sweepReport, State.frameEnded_sweep, State.frameEnded_nextPull]

/-- The re-evaluation changes jobs and the waiting list alone (R93), of which the report gives nothing. -/
@[simp] theorem State.reevaluate_sweepReport (s : State) : s.reevaluate.1.sweepReport = s.sweepReport := by
  obtain ⟨jobs, waiting, frames, h⟩ := s.reevaluate_frame
  rw [h]
  rfl

theorem answerSweep_frameEnded (s : State) (q : Request) (num : Byte) (code : ReplyCode) :
    answerSweep s.frameEnded q num code = answer s.frameEnded q num code (.sweep s.sweepReport) := by
  rw [answerSweep, State.frameEnded_sweepReport]

/-! ### The first tests of the sweep requests without fields, on a received request (R142) -/

section
variable {q : Request} {num : Byte} {len : Nat} {s : State} (hlen : len = q.bodyLength) (hreset : s.inReset = false)
include hlen hreset

theorem onRequest_whenSweeping_enteringDeep (hdeep : s.deepPending ≠ none) (f : State → Sweep → Effect) :
    onRequest q num len s (fun x => whenSweeping q num x (f x)) = conclude (answer s.frameEnded q num .power .none) :=
  onRequest_whenProvisioned_enteringDeep hlen hreset hdeep _

variable (hdeep : s.deepPending = none)
include hdeep

theorem onRequest_whenSweeping_prov_none (hprov : s.prov = none) (f : State → Sweep → Effect) :
    onRequest q num len s (fun x => whenSweeping q num x (f x)) =
      conclude (answer s.frameEnded q num .notProvisioned .none) :=
  onRequest_whenProvisioned_prov_none hlen hreset hdeep hprov _

variable (hprov : s.prov ≠ none)
include hprov

theorem onRequest_whenSweeping_sweep_none (hsweep : s.sweep = none) (f : State → Sweep → Effect) :
    onRequest q num len s (fun x => whenSweeping q num x (f x)) =
      conclude (answer s.frameEnded q num .notSweeping (.sweep s.sweepReport)) := by
  obtain ⟨prov, hsome⟩ := Option.ne_none_iff_exists'.mp hprov
  simp only [whenSweeping]
  rw [onRequest_whenProvisioned_prov_some hlen hreset hdeep hsome, State.frameEnded_sweep, hsweep,
    ← answerSweep_frameEnded]

theorem onRequest_whenSweeping_sweep_some {w : Sweep} (hsweep : s.sweep = some w) (f : State → Sweep → Effect) :
    onRequest q num len s (fun x => whenSweeping q num x (f x)) = conclude (f s.frameEnded w) := by
  obtain ⟨prov, hsome⟩ := Option.ne_none_iff_exists'.mp hprov
  simp only [whenSweeping]
  rw [onRequest_whenProvisioned_prov_some hlen hreset hdeep hsome, State.frameEnded_sweep, hsweep]

end

/-! ### The state of a sweep that is not IDLE (R133, R143) -/

theorem exec_issueStep (s : State) : exec .issueStep s = execIssueStep s := rfl

section
variable {s : State} {w : Sweep} (hsweep : s.sweep = some w)
include hsweep

theorem State.sweepTo_of_sweep_some (st : SweepState) :
    s.sweepTo st = { s with sweep := some { w with state := st } } := by
  rw [State.sweepTo, State.mapSweep, hsweep, Option.map_some]

theorem State.pauseIfEmpty_of_pulls_ne_nil (hpulls : w.pulls ≠ []) : s.pauseIfEmpty = (s, []) := by
  simp [State.pauseIfEmpty, hsweep, hpulls]

theorem State.pauseIfEmpty_of_pulls_nil (hstate : w.state = .pausing) (hpulls : w.pulls = []) :
    s.pauseIfEmpty =
      ({ s with sweep := some { w with state := .paused } }, [.notice (.sweepPaused w.range w.committed none none)]) := by
  simp [State.pauseIfEmpty, State.mapSweep, Sweep.pausedNotice, hsweep, hstate, hpulls]

/-- The first condition of R133: only a RUNNING sweep issues. -/
theorem State.issueStep_of_state_ne_running (hstate : w.state ≠ .running) : s.issueStep = (s, []) := by
  have hstays : s.mayIssue = false := by simp [State.mayIssue, hsweep, hstate]
  simp [State.issueStep, hstays]

theorem exec_issueStep_of_state_ne_running (hreset : s.inReset = false) (hstate : w.state ≠ .running) :
    exec .issueStep s = .next s := by
  simp [exec_issueStep, execIssueStep, onEvent, conclude, hreset, State.issueStep_of_state_ne_running hsweep hstate]

end

/-! ### PAUSE-SWEEP (R142) -/

section
variable {num : Byte} {s : State} {w : Sweep}

theorem exec_pauseSweep (num : Byte) (len : Nat) (s : State) :
    exec (.pauseSweep num len) s = execPauseSweep num len s := rfl

variable (hreset : s.inReset = false)
include hreset

theorem exec_pauseSweep_enteringDeep (hdeep : s.deepPending ≠ none) :
    exec (.pauseSweep num 2) s = conclude (answer s.frameEnded .pauseSweep num .power .none) := by
  rw [exec_pauseSweep, execPauseSweep, onRequest_whenSweeping_enteringDeep (len := 2) rfl hreset hdeep]

variable (hdeep : s.deepPending = none)
include hdeep

theorem exec_pauseSweep_notProvisioned (hprov : s.prov = none) :
    exec (.pauseSweep num 2) s = conclude (answer s.frameEnded .pauseSweep num .notProvisioned .none) := by
  rw [exec_pauseSweep, execPauseSweep, onRequest_whenSweeping_prov_none (len := 2) rfl hreset hdeep hprov]

variable (hprov : s.prov ≠ none)
include hprov

theorem exec_pauseSweep_notSweeping (hsweep : s.sweep = none) :
    exec (.pauseSweep num 2) s =
      conclude (answer s.frameEnded .pauseSweep num .notSweeping (.sweep s.sweepReport)) := by
  rw [exec_pauseSweep, execPauseSweep, onRequest_whenSweeping_sweep_none (len := 2) rfl hreset hdeep hprov hsweep]

variable (hsweep : s.sweep = some w)
include hsweep

/-- PAUSING or PAUSED already: nothing changes. -/
theorem exec_pauseSweep_of_state_ne_running (hstate : w.state ≠ .running) :
    exec (.pauseSweep num 2) s = conclude (answer s.frameEnded .pauseSweep num .ok (.sweep s.sweepReport)) := by
  rw [exec_pauseSweep, execPauseSweep, onRequest_whenSweeping_sweep_some (len := 2) rfl hreset hdeep hprov hsweep,
    ← answerSweep_frameEnded]
  cases h : w.state with
  | running => exact absurd h hstate
  | pausing | paused => rfl

/-- RUNNING: the sweep becomes PAUSING, and in the same event PAUSED when its list is empty. -/
theorem exec_pauseSweep_of_running (hstate : w.state = .running) :
    exec (.pauseSweep num 2) s = conclude (acceptSweep .pauseSweep num
      ({ s.frameEnded with sweep := some { w with state := .pausing } } : State).pauseIfEmpty) := by
  rw [exec_pauseSweep, execPauseSweep, onRequest_whenSweeping_sweep_some (len := 2) rfl hreset hdeep hprov hsweep,
    hstate, State.sweepTo_of_sweep_some ((State.frameEnded_sweep s).trans hsweep)]

theorem exec_pauseSweep_pausing (hstate : w.state = .running) (hpulls : w.pulls ≠ []) :
    exec (.pauseSweep num 2) s = conclude (acceptSweep .pauseSweep num
      ({ s.frameEnded with sweep := some { w with state := .pausing } }, [])) := by
  rw [exec_pauseSweep_of_running hreset hdeep hprov hsweep hstate,
    State.pauseIfEmpty_of_pulls_ne_nil (w := { w with state := .pausing }) rfl hpulls]

theorem exec_pauseSweep_paused (hstate : w.state = .running) (hpulls : w.pulls = []) :
    exec (.pauseSweep num 2) s = conclude (acceptSweep .pauseSweep num
      ({ s.frameEnded with sweep := some { w with state := .paused } },
        [.notice (.sweepPaused w.range w.committed none none)])) := by
  rw [exec_pauseSweep_of_running hreset hdeep hprov hsweep hstate,
    State.pauseIfEmpty_of_pulls_nil (w := { w with state := .pausing }) rfl rfl hpulls]

end

/-- The half of O30 about PAUSE-SWEEP: the rows of R142's table, and R133's first condition while PAUSING. -/
theorem pauseSweepDecides : Parts.PauseSweepDecides := by
  intro num s hreset
  refine ⟨exec_pauseSweep_enteringDeep hreset, exec_pauseSweep_notProvisioned hreset,
    exec_pauseSweep_notSweeping hreset, ?_⟩
  intro w hdeep hprov hsweep
  exact ⟨exec_pauseSweep_of_state_ne_running hreset hdeep hprov hsweep,
    exec_pauseSweep_pausing hreset hdeep hprov hsweep, exec_pauseSweep_paused hreset hdeep hprov hsweep,
    fun hpausing => exec_issueStep_of_state_ne_running hsweep hreset (by simp [hpausing])⟩

/-! ### ABANDON-SWEEP (R147) -/

section
variable {num : Byte} {s : State} {w : Sweep}

theorem exec_abandonSweep (num : Byte) (len : Nat) (s : State) :
    exec (.abandonSweep num len) s = execAbandonSweep num len s := rfl

variable (hreset : s.inReset = false)
include hreset

theorem exec_abandonSweep_enteringDeep (hdeep : s.deepPending ≠ none) :
    exec (.abandonSweep num 2) s = conclude (answer s.frameEnded .abandonSweep num .power .none) := by
  rw [exec_abandonSweep, execAbandonSweep, onRequest_whenSweeping_enteringDeep (len := 2) rfl hreset hdeep]

variable (hdeep : s.deepPending = none)
include hdeep

theorem exec_abandonSweep_notProvisioned (hprov : s.prov = none) :
    exec (.abandonSweep num 2) s = conclude (answer s.frameEnded .abandonSweep num .notProvisioned .none) := by
  rw [exec_abandonSweep, execAbandonSweep, onRequest_whenSweeping_prov_none (len := 2) rfl hreset hdeep hprov]

variable (hprov : s.prov ≠ none)
include hprov

theorem exec_abandonSweep_notSweeping (hsweep : s.sweep = none) :
    exec (.abandonSweep num 2) s =
      conclude (answer s.frameEnded .abandonSweep num .notSweeping (.sweep s.sweepReport)) := by
  rw [exec_abandonSweep, execAbandonSweep,
    onRequest_whenSweeping_sweep_none (len := 2) rfl hreset hdeep hprov hsweep]

variable (hsweep : s.sweep = some w)
include hsweep

theorem exec_abandonSweep_busy (hstate : w.state ≠ .paused) :
    exec (.abandonSweep num 2) s = conclude (answer s.frameEnded .abandonSweep num .busy (.sweep s.sweepReport)) := by
  rw [exec_abandonSweep, execAbandonSweep,
    onRequest_whenSweeping_sweep_some (len := 2) rfl hreset hdeep hprov hsweep, ← answerSweep_frameEnded]
  cases h : w.state with
  | running | pausing => rfl
  | paused => exact absurd h hstate

theorem exec_abandonSweep_migrated (hstate : w.state = .paused) (hmoved : 0 < w.committed) :
    exec (.abandonSweep num 2) s =
      conclude (answer s.frameEnded .abandonSweep num .migrated (.sweep s.sweepReport)) := by
  rw [exec_abandonSweep, execAbandonSweep,
    onRequest_whenSweeping_sweep_some (len := 2) rfl hreset hdeep hprov hsweep, ← answerSweep_frameEnded, hstate]
  simp only [if_pos hmoved]

/-- Accepted: the re-evaluation runs on the state in which the sweep is IDLE and the pending slot none. -/
theorem exec_abandonSweep_ok (hstate : w.state = .paused) (hunmoved : w.committed = 0) :
    exec (.abandonSweep num 2) s =
      conclude (acceptSweep .abandonSweep num (s.frameEnded.abandoned w).reevaluate) := by
  rw [exec_abandonSweep, execAbandonSweep,
    onRequest_whenSweeping_sweep_some (len := 2) rfl hreset hdeep hprov hsweep, hstate]
  simp only [if_neg (Nat.not_lt.mpr hunmoved.le)]

end

theorem State.frameEnded_abandoned (s : State) (w : Sweep) :
    s.frameEnded.abandoned w = { s.frameEnded with
      sweep := none, ranges := s.ranges.set w.range { s.ranges.get w.range with pending := none } } := by
  simp only [State.abandoned, Table.update, State.frameEnded_ranges]

/-- The report behind an accepted ABANDON-SWEEP: no view, and the next pull number kept (R130). -/
theorem State.frameEnded_abandoned_sweepReport (s : State) (w : Sweep) :
    (s.frameEnded.abandoned w).sweepReport = ⟨none, s.nextPull⟩ := by
  simp only [State.sweepReport, State.abandoned, Option.map_none, State.frameEnded_nextPull]

/-- The half of O30 about ABANDON-SWEEP: its tests in their order, and the accepted request. -/
theorem abandonSweepDecides : Parts.AbandonSweepDecides := by
  intro num s hreset
  refine ⟨exec_abandonSweep_enteringDeep hreset, exec_abandonSweep_notProvisioned hreset,
    exec_abandonSweep_notSweeping hreset, ?_⟩
  intro w hdeep hprov hsweep
  refine ⟨exec_abandonSweep_busy hreset hdeep hprov hsweep, exec_abandonSweep_migrated hreset hdeep hprov hsweep, ?_⟩
  intro hstate hunmoved
  have hexec := exec_abandonSweep_ok (num := num) hreset hdeep hprov hsweep hstate hunmoved
  rw [acceptSweep, replyFirst, State.reevaluate_sweepReport, State.frameEnded_abandoned_sweepReport,
    State.frameEnded_abandoned] at hexec
  exact hexec

/-- Settles O30, one half for each of the two requests. -/
theorem pauseAndAbandonDecide : Obligations.PauseAndAbandonDecide := ⟨pauseSweepDecides, abandonSweepDecides⟩

end Sys2Proof.Machine
